-- ==== Sys2Proof/Word.lean ====
section
/-! DEFINITION. The word types of the Nios V/m processor (00_scope R7, R9; 20_memory R90). -/

namespace Sys2Proof

/-- A byte of storage, 8 bits (20_memory R90). -/
abbrev Byte := BitVec 8

/-- A register, a CSR, an address or an instruction word, 32 bits numbered 31 down to 0 (R7, R9). -/
abbrev Word := BitVec 32

/-- The 5-bit number of a general register, naming `x0` to `x31` (30_encoding R131). -/
abbrev RegNum := BitVec 5

/-- The 12-bit number of a control and status register (10_state R30). -/
abbrev CsrNum := BitVec 12

end Sys2Proof
end

