-- ==== Sys2Proof/Config.lean ====
section
/-! DEFINITION. What a system fixes (00_scope R8) and what the spec leaves free.

The parameters of R8 are a record of plain data; State holds one, no step changes it, and every statement about
every state therefore holds for every choice of them. The free values are opaque constants: no proof can
see what they are. Each is applied to State's counter `free`, which every step advances, so that two steps may
meet two different values (93_implementation_defined, treatment `any value`). -/

namespace Sys2Proof

/-- Which instruction reports Instruction Address Misaligned (41 R243; 92 D10). -/
inductive MisalignedReport where
  /-- The jump or taken branch itself. -/
  | atJump
  /-- The step that would fetch at the misaligned target. -/
  | atTarget
deriving DecidableEq, Repr

/-- A range of the instruction port's addresses answered by memory (20_memory R103): address `base + k` is
storage cell `cell + k` for `k < size`. -/
structure InstrRegion where
  base : Nat
  size : Nat
  cell : Nat
deriving DecidableEq, Repr

/-- What answers on a range of the data port's addresses (20_memory R103; 60 R450). -/
inductive DataTarget where
  /-- Memory, the range's first address being storage cell `cell`. -/
  | memory (cell : Nat)
  /-- The timer and software interrupt module. -/
  | timer
  /-- A platform device, told apart by a number. -/
  | device (id : Nat)
deriving DecidableEq, Repr

/-- A range of the data port's addresses and what answers there (20_memory R103). -/
structure DataRegion where
  base : Nat
  size : Nat
  target : DataTarget
deriving DecidableEq, Repr

/-- The parameters of 00_scope R8. An address in no region of a map answers `fault` (20_memory R103); where
regions overlap the first listed answers. -/
structure Config where
  /-- RESET_ADDR. -/
  resetAddr : Word
  /-- EXC_ADDR. -/
  excAddr : Word
  /-- DEBUG_EXC_ADDR, read by no rule (60 R471). -/
  debugExcAddr : Word
  /-- TIMER_SW_BASE. -/
  timerBase : Word
  /-- MTIMECMP_OFF. -/
  mtimecmpOff : Word
  /-- MTIME_OFF. -/
  mtimeOff : Word
  /-- MSIP_OFF. -/
  msipOff : Word
  /-- IMap. -/
  imap : List InstrRegion
  /-- DMap. -/
  dmap : List DataRegion
  /-- MVENDORID. -/
  mvendorid : Word
  /-- MARCHID. -/
  marchid : Word
  /-- MIMPID. -/
  mimpid : Word
  /-- MHARTID. -/
  mhartid : Word
  /-- HAS_ZIFENCEI. -/
  hasZifencei : Bool
  /-- VECTORED_SUPPORTED. -/
  vectored : Bool
  /-- MISALIGNED_FETCH_REPORT. -/
  misaligned : MisalignedReport
  /-- RESERVATION_GRANULE, in bytes. -/
  granule : Nat
deriving DecidableEq, Repr

/-- The configuration of `State.reset`: the suggested values of R8 where there are any, one shared storage
behind both ports, and the timer module at the address of the spec's examples.
DESIGN CHOICE, log 2: RESET_ADDR 0, EXC_ADDR 0x20, TIMER_SW_BASE 0x10000 and the identity values 0 are the model's. -/
def Config.standard : Config where
  resetAddr := 0
  excAddr := 0x20
  debugExcAddr := 0
  timerBase := 0x00010000
  mtimecmpOff := 0x00
  mtimeOff := 0x08
  msipOff := 0x10
  imap := [{ base := 0, size := 4294967296, cell := 0 }]
  dmap := [{ base := 0x10000, size := 20, target := .timer },
           { base := 0, size := 4294967296, target := .memory 0 }]
  mvendorid := 0
  marchid := 0
  mimpid := 0
  mhartid := 0
  hasZifencei := true
  vectored := false
  misaligned := .atJump
  granule := 4

/-- What a narrow or unlisted access leaves in the timer module (60 R451: unspecified). -/
structure TimerContents where
  mtime : BitVec 64
  mtimecmp : BitVec 64
  msip : Bool
deriving DecidableEq, Repr

namespace Config

/-- How far `mtime` advances beyond 1 in a step (60 R452; U26). Log 8. -/
opaque tick : Nat → Nat

/-- How far `mtime` advances in a step spent in D-mode with `dcsr`.stoptime = 1, possibly not at all (U10). Log 8. -/
opaque tickStopped : Nat → Nat

/-- Which of several pending and enabled interrupts is taken (60 R428; U3). Log 9. -/
opaque pickInterrupt : Nat → Nat

/-- Whether a hart waiting in WFI resumes for no reason (44 R301; U6). Log 10. -/
opaque wakeUp : Nat → Bool

/-- Which of the words a cell has held a fetch returns (20 R118; U4). Log 11. -/
opaque pickFetch : Nat → Nat

/-- Whether `mtval` after a breakpoint is the address of the EBREAK rather than 0 (60 R431; U5). Log 12. -/
opaque breakpointTval : Nat → Bool

/-- Whether a store to `mtime` sets the word rather than leaving the counter unchanged (60 R457; U7). Log 13. -/
opaque mtimeStore : Nat → Bool

/-- What a narrow or unlisted load from the timer module gives, `none` being an error response (60 R451; U8). Log 14. -/
opaque timerOtherLoad : Nat → Option Word

/-- What a narrow or unlisted store leaves in the timer module, `none` being an error response (60 R451; U8). Log 14. -/
opaque timerOtherStore : Nat → Option TimerContents

/-- What a device answers to a read, `none` being an error response (00_scope R17; 20 R95). Log 7. -/
opaque deviceRead : Nat → Option Word

/-- Whether a device answers a write without an error (00_scope R17; 20 R95). Log 7. -/
opaque deviceWrite : Nat → Bool

/-- Whether the reservation survives trap entry (45 R333; U19). Log 15. -/
opaque trapKeepsReservation : Nat → Bool

/-- Whether the reservation survives MRET (45 R333; U19). Log 15. -/
opaque mretKeepsReservation : Nat → Bool

/-- Whether the reservation survives a store or AMO of this hart into the reserved block (45 R333; U19). Log 15. -/
opaque storeKeepsReservation : Nat → Bool

/-- Whether an SC.W whose reservation is intact fails all the same outside a constrained loop (45 R322, R335; U19).
Log 15. -/
opaque spuriousFail : Nat → Bool

/-- How many times running the SC.W of a constrained loop fails although its reservation is intact: any number, but a
number, so not forever (45 R335; U19). Log 15. -/
opaque spuriousRun : Nat → Nat

/-- What `pc` holds after entry to D-mode, where it is not meaningful (60 R475; 41 R252). Log 25. -/
opaque debugPc : Nat → Word

/-- The unspecified register result of a pc-dependent instruction in D-mode (60 R476; U14). Log 16. -/
opaque debugResult : Nat → Word

/-- The bits no source describes of a Debug Module register, by its address (60 R480). Log 28. -/
opaque dmOther : Nat → Nat → Word

/-- The unspecified place in the program buffer a control transfer in D-mode goes to (60 R476; U14). Log 16. -/
opaque debugTarget : Nat → Nat

end Config

end Sys2Proof
end

