-- ==== Sys2Proof/Machine/State.lean ====
section
/-! DEFINITION. The state of the processor and everything around it that its rules read (10_state; 20_memory R90,
R103; 60_exceptions sections 7 and 9), the reasons a step can stop, and the state after reset (70_reset R500). -/

namespace Sys2Proof
namespace Machine

/-- The current mode: Machine mode or Debug mode (10_state R27; 60 R460). -/
inductive Mode where
  | M
  | D
deriving DecidableEq, Repr

/-- The size of a data access: 1, 2 or 4 bytes (20_memory R98). -/
inductive AccessSize where
  | byte
  | half
  | word
deriving DecidableEq, Repr

/-- Storage: (cell, byte) pairs, cells strictly rising, no byte equal to what an unlisted cell reads as (0). -/
abbrev Memory := List Host.Cell

/-- One access a platform device has seen (20_memory R100). The model's own record. -/
inductive DeviceAccess where
  | read (id : Nat) (addr : Word) (size : AccessSize)
  | write (id : Nat) (addr : Word) (size : AccessSize) (value : Word)
deriving DecidableEq, Repr

/-- The values 10_state R60 leaves unspecified when reset is released (93 U1). -/
structure ResetValues where
  x : Vector Word 32
  mpie : Bool
  mie : Word
  mepc : Word
  mtval : Word
  dpc : Word
  mtime : BitVec 64
  mtimecmp : BitVec 64
deriving DecidableEq, Repr

/-- What the platform and the debugger can do to the machine between two steps (00_scope R17). -/
inductive Input where
  /-- The platform drives the sixteen interrupt lines (60 R411). -/
  | irq (lines : BitVec 16)
  /-- Another bus manager writes a byte of storage (20_memory R111). -/
  | busWrite (cell : Nat) (value : Byte)
  /-- Another bus manager writes the timer and software interrupt module (60 R455); its contents afterwards. -/
  | busTimer (contents : TimerContents)
  /-- Reset is asserted: the hart becomes Unavailable (60 R481, R485; 70 R500). -/
  | assertReset
  /-- Reset is released, the unspecified values being these (70 R500, R501, R502). -/
  | releaseReset (values : ResetValues)
  /-- The debugger writes `dmcontrol`.haltreq for the selected hart (60 R474, R480). -/
  | haltreq (on : Bool)
  /-- The debugger writes `dmcontrol`.hartsel (60 R463, R480). -/
  | hartsel (hart : Nat)
  /-- The debugger arms or disarms halt-on-reset (60 R471; 70 R502). -/
  | resetHaltReq (on : Bool)
  /-- The debugger asks the selected hart to resume (60 R477). -/
  | resumereq
  /-- The debugger writes `command` (60 R478). -/
  | command (value : Word)
  /-- The debugger writes `abstractcs` (60 R479). -/
  | abstractcs (value : Word)
  /-- The debugger writes `data0` (60 R478, R480). -/
  | data0 (value : Word)
  /-- The debugger writes a word of the program buffer (60 R476). -/
  | progbuf (index : Nat) (value : Word)
deriving DecidableEq, Repr

/-- The Debug Module (60 R470, R478 to R481). -/
structure DebugModule where
  /-- `dmcontrol`.haltreq for the one hart (R474). -/
  haltreq : Bool
  /-- `dmcontrol`.hartsel; hart 0 is the only one (R463). -/
  hartsel : Nat
  /-- Halt-on-reset is armed (R471; 70 R502). -/
  resetHaltReq : Bool
  /-- `command` (R478). -/
  command : Word
  /-- `data0`, which the Access Register command copies from and to (R478). -/
  data0 : Word
  /-- `abstractcs`.cmderr (R479). -/
  cmderr : BitVec 3
  /-- The program buffer; its size is not in the source (R476). -/
  progbuf : List Word
  /-- The word of the program buffer to execute next, while it runs (R476). -/
  pbIndex : Option Nat
deriving DecidableEq, Repr

/-- Where the hart is in a loop that may be a constrained LR/SC loop (45 R335). -/
inductive ScPhase where
  /-- Between the LR.W and the SC.W. -/
  | trying
  /-- The SC.W has just failed; the backward branch that retries comes next. -/
  | failed
  /-- After that branch, before the LR.W. -/
  | retrying
deriving DecidableEq, Repr

/-- A loop that has been a constrained LR/SC loop so far (45 R335). -/
structure ScLoop where
  /-- The lowest address of the loop. -/
  start : Word
  /-- The place in it. -/
  phase : ScPhase
  /-- The spurious failures still to come before the SC.W succeeds, once it has failed. -/
  left : Option Nat
deriving DecidableEq, Repr

/-- Everything the spec gives the machine, as plain data. -/
structure State where
  /-- The parameters of 00_scope R8; no step changes them. -/
  cfg : Config
  /-- The general registers (10_state R20); reads and writes go through `getReg` and `setReg` (R21). -/
  x : Vector Word 32
  /-- The address of the instruction being executed (10_state R23). -/
  pc : Word
  /-- M or D (10_state R27). -/
  mode : Mode
  /-- CSR 0x300 (10_state R38, R39). -/
  mstatus : Word
  /-- CSR 0x304 (10_state R41). -/
  mie : Word
  /-- CSR 0x305 (10_state R42). -/
  mtvec : Word
  /-- CSR 0x341 (10_state R43). -/
  mepc : Word
  /-- CSR 0x342 (10_state R44). -/
  mcause : Word
  /-- CSR 0x343 (10_state R45). -/
  mtval : Word
  /-- CSR 0x7B0 (10_state R47). -/
  dcsr : Word
  /-- CSR 0x7B1 (10_state R48). -/
  dpc : Word
  /-- The load reservation: the address of the LR.W, if one is held (10_state R53). -/
  reservation : Option Word
  /-- The model's own: the constrained LR/SC loop the hart may be in (45 R335). -/
  scLoop : Option ScLoop
  /-- The model's own: the constrained LR/SC loops a trap or a halt has interrupted on their way back to the LR.W, each
  with the address at which it goes on, the latest first (45 R335). -/
  scParked : List (Word × ScLoop)
  /-- The hart waits in WFI (44 R301; 60 R465). -/
  waiting : Bool
  /-- The hart was resumed with `dcsr`.step = 1 and owes one step (60 R473). -/
  stepping : Bool
  /-- Reset is asserted: the hart is Unavailable (60 R481). -/
  inReset : Bool
  /-- Storage behind the two ports (10_state R50). -/
  mem : Memory
  /-- For each store since the last FENCE.I, what the words it fell into held: (first cell, word) (10_state R54;
  20_memory R118). -/
  stale : List (Nat × Word)
  /-- The 64-bit counter (60 R452). -/
  mtime : BitVec 64
  /-- The 64-bit compare value (60 R453). -/
  mtimecmp : BitVec 64
  /-- The software interrupt bit (60 R455). -/
  msip : Bool
  /-- The levels of the platform interrupt lines (10_state R52). -/
  irq : BitVec 16
  /-- The Debug Module (60 section 9). -/
  dm : DebugModule
  /-- The model's own: the batches of inputs to come, one for each step. -/
  inbox : List (List Input)
  /-- The model's own: the accesses devices have seen, newest first. -/
  devLog : List DeviceAccess
  /-- The model's own: the counter the free values of Config are applied to. -/
  free : Nat
deriving DecidableEq, Repr

/-- Why the machine stops. M-mode never stops (93 section 1: every access completes or raises a precise fault). -/
inductive Fault where
  /-- The program buffer ran past its last word without an EBREAK; how it then ends is unspecified (93 U14).
  Raised by the D-mode cycle, never by an instruction. Safe: no later state is claimed. -/
  | programBufferEnd
deriving DecidableEq, Repr

/-- Why an instruction is given no meaning. -/
inductive Refusal where
  /-- No meaning has been written for the instruction yet. Raised by `exec`'s refused arms. Safe. -/
  | notModelled (mnemonic : String)
  /-- ECALL from the program buffer (44 R305 "not in source"; 93 U14). Raised by `execEcall` in D-mode. Safe. -/
  | ecallInDebugMode
  /-- MRET from the program buffer (44 R305 "not in source"; 93 U14). Raised by `execMret` in D-mode. Safe. -/
  | mretInDebugMode
  /-- WFI from the program buffer (44 R305 "not in source"; 93 U14). Raised by `execWfi` in D-mode. Safe. -/
  | wfiInDebugMode
deriving DecidableEq, Repr

/-- The outcome of an instruction or a step. -/
abbrev Out := Host.Outcome State Fault Refusal

/-- What a reset leaves of the hart and the timer module, for given unspecified values (70 R500; 10_state R60).
Storage, the lines, the devices and the Debug Module are not reset (70 R501), so they stand as they were in `s`. -/
def State.afterReset (u : ResetValues) (s : State) : State :=
  { s with
    x := u.x
    pc := s.cfg.resetAddr
    mode := .M
    mstatus := if u.mpie then 0x00001880#32 else 0x00001800#32
    mie := u.mie &&& 0xFFFF0088#32
    mtvec := s.cfg.excAddr &&& 0xFFFFFFFC#32
    mepc := u.mepc &&& 0xFFFFFFFC#32
    mcause := 0
    mtval := u.mtval
    dcsr := 0x40000003#32
    dpc := u.dpc &&& 0xFFFFFFFC#32
    reservation := none
    scLoop := none
    scParked := []
    waiting := false
    stepping := false
    inReset := false
    stale := []
    mtime := u.mtime
    mtimecmp := u.mtimecmp
    msip := false
    dm := { s.dm with pbIndex := none } }

/-- The unspecified reset values of `State.reset`, all 0. DESIGN CHOICE, log 1. -/
def ResetValues.zero : ResetValues where
  x := Vector.replicate 32 0
  mpie := false
  mie := 0
  mepc := 0
  mtval := 0
  dpc := 0
  mtime := 0
  mtimecmp := 0

/-- The machine before its first reset: only what a reset does not touch matters. DESIGN CHOICE, logs 2 to 7. -/
def State.powerOn : State where
  cfg := Config.standard
  x := Vector.replicate 32 0
  pc := 0
  mode := .M
  mstatus := 0x00001800#32
  mie := 0
  mtvec := 0
  mepc := 0
  mcause := 0
  mtval := 0
  dcsr := 0x40000003#32
  dpc := 0
  reservation := none
  scLoop := none
  scParked := []
  waiting := false
  stepping := false
  inReset := true
  mem := []
  stale := []
  mtime := 0
  mtimecmp := 0
  msip := false
  irq := 0
  dm :=
    { haltreq := false
      hartsel := 0
      resetHaltReq := false
      command := 0
      data0 := 0
      cmderr := 0
      progbuf := List.replicate 16 0
      pbIndex := none }
  inbox := []
  devLog := []
  free := 0

/-- The machine right after power-on reset (70 R500; 10_state R60). -/
def State.reset : State := State.powerOn.afterReset ResetValues.zero

end Machine
end Sys2Proof
end

