-- ==== Sys2Proof/Machine/Memory.lean ====
section
/-! DEFINITION. Storage: reading and writing one byte, the canonical form, and the 1, 2 and 4-byte accesses built
from them in the one byte order of 20_memory R91. -/

namespace Sys2Proof
namespace Machine

/-- The byte in a cell; an unlisted cell reads 0. DESIGN CHOICE, log 4: contents after power-on are unspecified. -/
def Memory.read : Memory → Nat → Byte
  | [], _ => 0
  | (a, b) :: m, c => if a = c then b else Memory.read m c

/-- Every entry of a cell dropped. -/
def Memory.erase (m : Memory) (c : Nat) : Memory := m.filter (fun p => p.1 != c)

/-- An entry put at its place in rising order. -/
def Memory.insert : Memory → Nat → Byte → Memory
  | [], c, v => [(c, v)]
  | (a, b) :: m, c, v => if c < a then (c, v) :: (a, b) :: m else (a, b) :: Memory.insert m c v

/-- One byte written, the canonical form kept: a 0 is not listed. -/
def Memory.write (m : Memory) (c : Nat) (v : Byte) : Memory :=
  if v = 0 then Memory.erase m c else Memory.insert (Memory.erase m c) c v

/-- The canonical form: cells strictly rising, no listed 0. -/
def Memory.wf : Memory → Bool
  | [] => true
  | [(_, b)] => b != 0
  | (a, b) :: (a', b') :: m => b != 0 && a < a' && Memory.wf ((a', b') :: m)

/-- The number of bytes of an access (20_memory R98). -/
def AccessSize.bytes : AccessSize → Nat
  | .byte => 1
  | .half => 2
  | .word => 4

/-- The low bytes of a word that an access of this size carries, the rest 0. -/
def AccessSize.clip : AccessSize → Word → Word
  | .byte, v => (v.setWidth 8).setWidth 32
  | .half, v => (v.setWidth 16).setWidth 32
  | .word, v => v

/-- The value of 1, 2 or 4 cells from `c` on, the byte at the lowest cell being bits 7:0 (20_memory R91),
zero-extended. -/
def Memory.load (m : Memory) (size : AccessSize) (c : Nat) : Word :=
  match size with
  | .byte => (Memory.read m c).setWidth 32
  | .half => (Memory.read m (c + 1) ++ Memory.read m c).setWidth 32
  | .word => Memory.read m (c + 3) ++ Memory.read m (c + 2) ++ Memory.read m (c + 1) ++ Memory.read m c

/-- `v[8k+7:8k]` put in cell `c + k` for each byte `k` of the access (20_memory R91); no other cell changes (R98). -/
def Memory.store (m : Memory) (size : AccessSize) (c : Nat) (v : Word) : Memory :=
  match size with
  | .byte => Memory.write m c (v.extractLsb' 0 8)
  | .half => Memory.write (Memory.write m c (v.extractLsb' 0 8)) (c + 1) (v.extractLsb' 8 8)
  | .word =>
    Memory.write (Memory.write (Memory.write (Memory.write m c (v.extractLsb' 0 8)) (c + 1) (v.extractLsb' 8 8))
      (c + 2) (v.extractLsb' 16 8)) (c + 3) (v.extractLsb' 24 8)

/-- An access of this size at this address is aligned: `a mod n = 0` (20_memory R94). -/
def AccessSize.aligned (size : AccessSize) (a : Word) : Bool := a.toNat % size.bytes == 0

end Machine
end Sys2Proof
end

