-- ==== Sys2Proof/Machine/Ops.lean ====
section
/-! DEFINITION. The named operations of the hart: registers, the end of an instruction, the fields of `mstatus` and
`dcsr`, the load reservation, taking an exception and returning from one, entering and leaving D-mode. -/

namespace Sys2Proof
namespace Machine

/-! ### Registers (10_state R20, R21) -/

/-- `x[r]`; `x[0]` reads 0 (00_scope R11). -/
def State.getReg (s : State) (r : RegNum) : Word := if r = 0 then 0 else s.x[r.toNat]

/-- `x[r] <- v`; a write to `x[0]` is discarded (00_scope R11). -/
def State.setReg (s : State) (r : RegNum) (v : Word) : State :=
  { s with x := if r = 0 then s.x else s.x.set r.toNat v }

/-! ### The end of an instruction that assigns no pc (00_scope R11) -/

/-- The place in the program buffer after this one, if it runs (60 R476). -/
def DebugModule.nextIndex (d : DebugModule) : DebugModule := { d with pbIndex := d.pbIndex.map (· + 1) }

/-- On to the next instruction: `pc + 4` in M-mode (00_scope R11; 10_state R25), the next word of the program
buffer in D-mode, where `pc` is not meaningful (60 R475, R476). -/
def State.advance (s : State) : State :=
  { s with
    pc := if s.mode = .M then s.pc + 4 else s.pc
    dm := if s.mode = .M then s.dm else s.dm.nextIndex }

/-! ### Fields of `mstatus`, `dcsr` and `mtvec` -/

/-- `mstatus`.MIE, bit 3 (10_state R39). -/
def State.mstatusMIE (s : State) : Bool := s.mstatus.getLsbD 3

/-- `mstatus`.MPIE, bit 7 (10_state R39). -/
def State.mstatusMPIE (s : State) : Bool := s.mstatus.getLsbD 7

/-- `mstatus` with these MIE and MPIE and its hardwired fields (10_state R39: `0x00001800 | MPIE<<7 | MIE<<3`). -/
def mstatusWord (mie mpie : Bool) : Word :=
  0x00001800#32 ||| (if mpie then 0x80#32 else 0) ||| (if mie then 0x8#32 else 0)

/-- `dcsr`.ebreakm, bit 15 (10_state R47). -/
def State.dcsrEbreakm (s : State) : Bool := s.dcsr.getLsbD 15

/-- `dcsr`.stepie, bit 11. -/
def State.dcsrStepie (s : State) : Bool := s.dcsr.getLsbD 11

/-- `dcsr`.stoptime, bit 9. -/
def State.dcsrStoptime (s : State) : Bool := s.dcsr.getLsbD 9

/-- `dcsr`.step, bit 2. -/
def State.dcsrStep (s : State) : Bool := s.dcsr.getLsbD 2

/-- `dcsr` with this cause in bits 8:6 and prv = 3, its other bits as they were (60 R471). -/
def dcsrWithCause (dcsr : Word) (cause : BitVec 3) : Word :=
  (dcsr &&& 0xFFFFFE3C#32) ||| (cause.setWidth 32 <<< 6) ||| 0x3#32

/-- `{csr[mtvec].BASE, 2'b00}` (10_state R42). -/
def State.trapBase (s : State) : Word := s.mtvec &&& 0xFFFFFFFC#32

/-- `csr[mtvec].MODE = 1`, Vectored (10_state R42). -/
def State.trapVectored (s : State) : Bool := s.mtvec.extractLsb' 0 2 == 1#2

/-! ### The load reservation (45 R333) -/

/-- The reservation kept or lost, as the free value says (U19, log 15); none stays none. -/
def keepReservation (keep : Bool) : Option Word → Option Word
  | none => none
  | some a => if keep then some a else none

/-- Two addresses in one reserved block: the aligned block of RESERVATION_GRANULE bytes (45 R333). -/
def sameBlock (cfg : Config) (a b : Word) : Bool := a.toNat / cfg.granule == b.toNat / cfg.granule

/-- The reservation is valid and covers `a` (45 R322). -/
def State.reserves (s : State) (a : Word) : Bool :=
  match s.reservation with
  | none => false
  | some r => sameBlock s.cfg r a

/-! ### Constrained LR/SC loops across traps and halts (45 R335) -/

/-- A trap or a halt after which the hart is to go on at `resume`: an attempt of a constrained loop, between its LR.W
and its SC.W, is over; a loop on its way back to the LR.W is kept for the return, its failures counted. -/
def State.parkLoop (s : State) (resume : Word) : List (Word × ScLoop) :=
  match s.scLoop with
  | some l => if l.phase = .trying then s.scParked else (resume, l) :: s.scParked
  | none => s.scParked

/-- The loop that goes on where the hart returns to `pc`: the one interrupted there last. -/
def State.parkedLoop (s : State) (pc : Word) : Option ScLoop := (s.scParked.find? (fun p => p.1 == pc)).map (·.2)

/-- The interrupted loops left after a return to `pc`. -/
def State.parkedRest (s : State) (pc : Word) : List (Word × ScLoop) := s.scParked.eraseP (fun p => p.1 == pc)

/-! ### Taking an exception or interrupt (60 R430) -/

/-- The nine synchronous exceptions of Table 6 (60 R400). -/
inductive Exc where
  | instructionAddressMisaligned
  | instructionAccessFault
  | illegalInstruction
  | breakpoint
  | loadAddressMisaligned
  | loadAccessFault
  | storeAddressMisaligned
  | storeAccessFault
  | envCallFromMMode
deriving DecidableEq, Repr

/-- The exception code (60 R400). -/
def excCode : Exc → BitVec 31
  | .instructionAddressMisaligned => 0
  | .instructionAccessFault => 1
  | .illegalInstruction => 2
  | .breakpoint => 3
  | .loadAddressMisaligned => 4
  | .loadAccessFault => 5
  | .storeAddressMisaligned => 6
  | .storeAccessFault => 7
  | .envCallFromMMode => 11

/-- Where a trap goes: BASE, or BASE + 4 * code for an interrupt in Vectored mode (60 R430, R432). -/
def State.handlerAddress (s : State) (interrupt : Bool) (code : BitVec 31) : Word :=
  if interrupt && s.trapVectored then s.trapBase + 4 * code.setWidth 32 else s.trapBase

/-- Trap entry (60 R430): `mepc`, `mcause` and `mtval` are written, MPIE takes MIE, MIE becomes 0, the pc goes to
the handler and the load reservation may be lost; a constrained LR/SC loop is left (45 R335). The mode stays M.
Nothing else changes. -/
def trapEntry (interrupt : Bool) (code : BitVec 31) (tval epc : Word) (s : State) : State :=
  { s with
    mepc := epc &&& 0xFFFFFFFC#32
    mcause := BitVec.ofBool interrupt ++ code
    mtval := tval
    mstatus := mstatusWord false s.mstatusMIE
    pc := s.handlerAddress interrupt code
    reservation := keepReservation (Config.trapKeepsReservation s.free) s.reservation
    scLoop := none
    scParked := s.parkLoop (epc &&& 0xFFFFFFFC#32) }

/-- `cmderr` set unless an earlier error stands (60 R479). -/
def DebugModule.setError (d : DebugModule) (code : BitVec 3) : DebugModule :=
  { d with cmderr := if d.cmderr = 0 then code else d.cmderr }

/-- An exception in D-mode (60 R476): no trap entry, the program buffer ends, the hart stays halted, `cmderr` 3. -/
def debugException (s : State) : State := { s with dm := { s.dm.setError 3 with pbIndex := none } }

/-- `raise <Name>(info)` (00_scope R13): trap entry with the pc of the instruction in M-mode, the end of the program
buffer in D-mode. -/
def raise (e : Exc) (info : Word) (s : State) : State :=
  if s.mode = .M then trapEntry false (excCode e) info s.pc s else debugException s

/-- Trap return (60 R440): the pc comes from `mepc`, MIE takes MPIE, MPIE becomes 1, the mode stays M and the load
reservation may be lost; a constrained LR/SC loop interrupted there goes on (45 R335). -/
def trapReturn (s : State) : State :=
  { s with
    pc := s.mepc
    mstatus := mstatusWord s.mstatusMPIE true
    reservation := keepReservation (Config.mretKeepsReservation s.free) s.reservation
    scLoop := s.parkedLoop s.mepc
    scParked := s.parkedRest s.mepc }

/-! ### Entering and leaving D-mode (60 R471, R477) -/

/-- `enter_debug(cause, next_pc)` (60 R471): `dpc`, `dcsr`.cause and `dcsr`.prv are written, the hart is halted, the
reservation is invalid; a wait in WFI and a single step are over (R473, R474), a constrained LR/SC loop is left (45
R335). `pc`, which the entry writes with an aligned value (41 R252), R471 does not assign and R475 calls not
meaningful in D-mode: the value is free, its low two bits 0. DESIGN CHOICE, log 25. -/
def enterDebug (cause : BitVec 3) (nextPc : Word) (s : State) : State :=
  { s with
    pc := Config.debugPc s.free &&& 0xFFFFFFFC#32
    dpc := nextPc &&& 0xFFFFFFFC#32
    dcsr := dcsrWithCause s.dcsr cause
    mode := .D
    reservation := none
    scLoop := none
    scParked := s.parkLoop (nextPc &&& 0xFFFFFFFC#32)
    waiting := false
    stepping := false
    dm := { s.dm with pbIndex := none } }

/-- Resume (60 R477; 44 R302): the pc comes from `dpc`, the mode is `dcsr`.prv, always M; with `dcsr`.step = 1 the
hart owes one step (R473); a constrained LR/SC loop interrupted there goes on (45 R335). -/
def leaveDebug (s : State) : State :=
  { s with
    pc := s.dpc
    mode := .M
    stepping := s.dcsrStep
    scLoop := s.parkedLoop s.dpc
    scParked := s.parkedRest s.dpc
    dm := { s.dm with pbIndex := none } }

/-- Register result and on to the next instruction: how every instruction that only computes ends (40 R200). -/
def writeRd (rd : RegNum) (v : Word) (s : State) : Out := .next ((s.setReg rd v).advance)

end Machine
end Sys2Proof
end

