-- ==== Sys2Proof/Machine/Bus.lean ====
section
/-! DEFINITION. The two ports (20_memory R90, R103): what answers at an address, `MemRead`, `MemWrite` and `Fetch`
(00_scope R12), and the timer and software interrupt module on the data port (60 section 7). -/

namespace Sys2Proof
namespace Machine

/-! ### The maps (20_memory R103) -/

/-- What answers on the data port at an address. -/
inductive DataAnswer where
  | memory (cell : Nat)
  | timer
  | device (id : Nat)
  | fault
deriving DecidableEq, Repr

/-- DMap: the first region that holds the address; none is `fault` (20_memory R103; 92 D22). -/
def dataAnswer : List DataRegion → Nat → DataAnswer
  | [], _ => .fault
  | r :: rs, a =>
    if r.base ≤ a ∧ a < r.base + r.size then
      match r.target with
      | .memory cell => .memory (cell + (a - r.base))
      | .timer => .timer
      | .device id => .device id
    else dataAnswer rs a

/-- IMap: the storage cell that answers a fetch, or `none` for `fault` (20_memory R97, R103). -/
def fetchCell : List InstrRegion → Nat → Option Nat
  | [], _ => none
  | r :: rs, a =>
    if r.base ≤ a ∧ a < r.base + r.size then some (r.cell + (a - r.base)) else fetchCell rs a

/-! ### The timer and software interrupt module (60 R450 to R457) -/

/-- The five words of the module (60 R451). -/
inductive TimerReg where
  | mtimecmpLo
  | mtimecmpHi
  | mtimeLo
  | mtimeHi
  | msip
deriving DecidableEq, Repr

/-- Which word of the module an address names (60 R451). -/
def timerReg (cfg : Config) (a : Word) : Option TimerReg :=
  if a = cfg.timerBase + cfg.mtimecmpOff then some .mtimecmpLo
  else if a = cfg.timerBase + cfg.mtimecmpOff + 4 then some .mtimecmpHi
  else if a = cfg.timerBase + cfg.mtimeOff then some .mtimeLo
  else if a = cfg.timerBase + cfg.mtimeOff + 4 then some .mtimeHi
  else if a = cfg.timerBase + cfg.msipOff then some .msip
  else none

/-- The low word of a 64-bit register (60 R451). -/
def lowWord (v : BitVec 64) : Word := v.extractLsb' 0 32

/-- The high word of a 64-bit register (60 R451). -/
def highWord (v : BitVec 64) : Word := v.extractLsb' 32 32

/-- The value a word load of the module reads; `msip` is bit 0, bits 31:1 read 0 (60 R451). -/
def timerLoad (s : State) : TimerReg → Word
  | .mtimecmpLo => lowWord s.mtimecmp
  | .mtimecmpHi => highWord s.mtimecmp
  | .mtimeLo => lowWord s.mtime
  | .mtimeHi => highWord s.mtime
  | .msip => if s.msip then 1 else 0

/-- What a word store to the module does (60 R451, R454, R455). A store to `mtime` sets the word or is ignored, as
the free value says (R457; U7, log 13). -/
def timerStore (s : State) (r : TimerReg) (v : Word) : State :=
  { s with
    mtimecmp :=
      match r with
      | .mtimecmpLo => highWord s.mtimecmp ++ v
      | .mtimecmpHi => v ++ lowWord s.mtimecmp
      | _ => s.mtimecmp
    mtime :=
      match r with
      | .mtimeLo => if Config.mtimeStore s.free then highWord s.mtime ++ v else s.mtime
      | .mtimeHi => if Config.mtimeStore s.free then v ++ lowWord s.mtime else s.mtime
      | _ => s.mtime
    msip :=
      match r with
      | .msip => v.getLsbD 0
      | _ => s.msip }

/-- The module's whole contents replaced. -/
def setTimer (c : TimerContents) (s : State) : State :=
  { s with mtime := c.mtime, mtimecmp := c.mtimecmp, msip := c.msip }

/-- The word of the module a full-word access names; a byte or halfword access names none (60 R451; U8). -/
def timerWordAccess (cfg : Config) (size : AccessSize) (a : Word) : Option TimerReg :=
  match size with
  | .word => timerReg cfg a
  | _ => none

/-! ### Storage -/

/-- The first cells of the words that share a byte with the `n` cells from `c` on: those from `c - 3` to `c + n - 1`.
The maps need not put words at cells that are multiples of 4 (20_memory R103). -/
def wordsOver (c n : Nat) : List Nat := List.range' (c - 3) (n + min c 3)

/-- A store to storage: the bytes are written, and what each word it falls into held is remembered for fetches that
may have been made early (20_memory R118; 43 R282; 10_state R54). -/
def writeStorage (size : AccessSize) (c : Nat) (v : Word) (s : State) : State :=
  { s with
    mem := Memory.store s.mem size c v
    stale := (wordsOver c size.bytes).map (fun w => (w, Memory.load s.mem .word w)) ++ s.stale }

/-- A device access recorded (20_memory R100). -/
def logDevice (e : DeviceAccess) (s : State) : State := { s with devLog := e :: s.devLog }

/-! ### MemRead and MemWrite (00_scope R12) -/

/-- `MemRead(a, n)` at an aligned address: the state after the transfer and the zero-extended value, or no value when
the response is an error (20_memory R95). A device sees the access either way (60 R407). -/
def memRead (size : AccessSize) (a : Word) (s : State) : State × Option Word :=
  match dataAnswer s.cfg.dmap a.toNat with
  | .memory c => (s, some (Memory.load s.mem size c))
  | .timer =>
    match timerWordAccess s.cfg size a with
    | some r => (s, some (timerLoad s r))
    | none => (s, (Config.timerOtherLoad s.free).map size.clip)
  | .device id => (logDevice (.read id a size) s, (Config.deviceRead s.free).map size.clip)
  | .fault => (s, none)

/-- The reservation after a completed store or AMO of this hart at `a`: possibly lost when the store falls into the
reserved block (45 R333; U19, log 15). -/
def breakReservation (a : Word) (s : State) : State :=
  { s with
    reservation :=
      if s.reserves a then keepReservation (Config.storeKeepsReservation s.free) s.reservation else s.reservation }

/-- `MemWrite(a, n, v)` at an aligned address: the state after the transfer, and whether the response was no error
(20_memory R95). On `fault` nothing the model owns changes (92 D22). -/
def memWrite (size : AccessSize) (a : Word) (v : Word) (s : State) : State × Bool :=
  match dataAnswer s.cfg.dmap a.toNat with
  | .memory c => (breakReservation a (writeStorage size c v s), true)
  | .timer =>
    match timerWordAccess s.cfg size a with
    | some r => (breakReservation a (timerStore s r v), true)
    | none =>
      match Config.timerOtherStore s.free with
      | some t => (breakReservation a (setTimer t s), true)
      | none => (s, false)
  | .device id =>
    (breakReservation a (logDevice (.write id a size (size.clip v)) s), Config.deviceWrite s.free)
  | .fault => (s, false)

/-! ### Fetch (00_scope R12) -/

/-- The words remembered for a cell since the last FENCE.I (20_memory R118). -/
def staleWords (stale : List (Nat × Word)) (c : Nat) : List Word :=
  (stale.filter (fun p => p.1 == c)).map (·.2)

/-- The word a fetch of a cell returns: what it holds, or, where it has been stored to since the last FENCE.I, that
or any word it held (20_memory R118; U4, log 11). -/
def fetchWord (s : State) (c : Nat) : Word :=
  match staleWords s.stale c with
  | [] => Memory.load s.mem .word c
  | w :: ws =>
    (Memory.load s.mem .word c :: w :: ws).getD (Config.pickFetch s.free % (ws.length + 2)) w

/-- `Fetch(a)`: the instruction word, or `none` when the response is an error (20_memory R97). -/
def fetch (s : State) (a : Word) : Option Word := (fetchCell s.cfg.imap a.toNat).map (fetchWord s)

end Machine
end Sys2Proof
end

