-- ==== Sys2Proof/Syntax.lean ====
section
/-! DEFINITION. The instruction set: one constructor for each of the 61 rows of spec/opcode_table.json
(30_encoding R150 to R158). Immediates are the values of rules R140 to R146 before sign extension; the
branch and jump offsets carry their implicit bit 0. -/

namespace Sys2Proof

/-- An instruction of RV32IA with the CSR, FENCE.I, MRET, WFI and DRET instructions (00_scope R2, R5). -/
inductive Instr where
  /-- LUI (40 R201). -/
  | lui (rd : RegNum) (imm : BitVec 20)
  /-- AUIPC (40 R202). -/
  | auipc (rd : RegNum) (imm : BitVec 20)
  /-- JAL (41 R241); `off` is the 21-bit byte offset of R144. -/
  | jal (rd : RegNum) (off : BitVec 21)
  /-- JALR (41 R242). -/
  | jalr (rd rs1 : RegNum) (imm : BitVec 12)
  /-- BEQ (41 R244); `off` is the 13-bit byte offset of R142. -/
  | beq (rs1 rs2 : RegNum) (off : BitVec 13)
  /-- BNE (41 R245). -/
  | bne (rs1 rs2 : RegNum) (off : BitVec 13)
  /-- BLT (41 R246). -/
  | blt (rs1 rs2 : RegNum) (off : BitVec 13)
  /-- BGE (41 R247). -/
  | bge (rs1 rs2 : RegNum) (off : BitVec 13)
  /-- BLTU (41 R248). -/
  | bltu (rs1 rs2 : RegNum) (off : BitVec 13)
  /-- BGEU (41 R249). -/
  | bgeu (rs1 rs2 : RegNum) (off : BitVec 13)
  /-- LB (42 R261). -/
  | lb (rd rs1 : RegNum) (imm : BitVec 12)
  /-- LH (42 R262). -/
  | lh (rd rs1 : RegNum) (imm : BitVec 12)
  /-- LW (42 R263). -/
  | lw (rd rs1 : RegNum) (imm : BitVec 12)
  /-- LBU (42 R264). -/
  | lbu (rd rs1 : RegNum) (imm : BitVec 12)
  /-- LHU (42 R265). -/
  | lhu (rd rs1 : RegNum) (imm : BitVec 12)
  /-- SB (42 R266): `rs1` is the base, `rs2` the source. -/
  | sb (rs1 rs2 : RegNum) (imm : BitVec 12)
  /-- SH (42 R267). -/
  | sh (rs1 rs2 : RegNum) (imm : BitVec 12)
  /-- SW (42 R268). -/
  | sw (rs1 rs2 : RegNum) (imm : BitVec 12)
  /-- ADDI (40 R203). -/
  | addi (rd rs1 : RegNum) (imm : BitVec 12)
  /-- SLTI (40 R204). -/
  | slti (rd rs1 : RegNum) (imm : BitVec 12)
  /-- SLTIU (40 R205). -/
  | sltiu (rd rs1 : RegNum) (imm : BitVec 12)
  /-- XORI (40 R206). -/
  | xori (rd rs1 : RegNum) (imm : BitVec 12)
  /-- ORI (40 R207). -/
  | ori (rd rs1 : RegNum) (imm : BitVec 12)
  /-- ANDI (40 R208). -/
  | andi (rd rs1 : RegNum) (imm : BitVec 12)
  /-- SLLI (40 R209). -/
  | slli (rd rs1 : RegNum) (shamt : BitVec 5)
  /-- SRLI (40 R210). -/
  | srli (rd rs1 : RegNum) (shamt : BitVec 5)
  /-- SRAI (40 R211). -/
  | srai (rd rs1 : RegNum) (shamt : BitVec 5)
  /-- ADD (40 R212). -/
  | add (rd rs1 rs2 : RegNum)
  /-- SUB (40 R213). -/
  | sub (rd rs1 rs2 : RegNum)
  /-- SLL (40 R214). -/
  | sll (rd rs1 rs2 : RegNum)
  /-- SLT (40 R215). -/
  | slt (rd rs1 rs2 : RegNum)
  /-- SLTU (40 R216). -/
  | sltu (rd rs1 rs2 : RegNum)
  /-- XOR (40 R217). -/
  | xor (rd rs1 rs2 : RegNum)
  /-- SRL (40 R218). -/
  | srl (rd rs1 rs2 : RegNum)
  /-- SRA (40 R219). -/
  | sra (rd rs1 rs2 : RegNum)
  /-- OR (40 R220). -/
  | or (rd rs1 rs2 : RegNum)
  /-- AND (40 R221). -/
  | and (rd rs1 rs2 : RegNum)
  /-- FENCE (43 R280); every field is kept although none takes part (30 R163). -/
  | fence (fm pred succ : BitVec 4) (rs1 rd : RegNum)
  /-- FENCE.I (43 R281); the ignored fields are kept (30 R163). -/
  | fenceI (imm : BitVec 12) (rs1 rd : RegNum)
  /-- ECALL (44 R290). -/
  | ecall
  /-- EBREAK (44 R291). -/
  | ebreak
  /-- CSRRW (44 R293). -/
  | csrrw (rd : RegNum) (csr : CsrNum) (rs1 : RegNum)
  /-- CSRRS (44 R294). -/
  | csrrs (rd : RegNum) (csr : CsrNum) (rs1 : RegNum)
  /-- CSRRC (44 R295). -/
  | csrrc (rd : RegNum) (csr : CsrNum) (rs1 : RegNum)
  /-- CSRRWI (44 R297). -/
  | csrrwi (rd : RegNum) (csr : CsrNum) (uimm : BitVec 5)
  /-- CSRRSI (44 R298). -/
  | csrrsi (rd : RegNum) (csr : CsrNum) (uimm : BitVec 5)
  /-- CSRRCI (44 R299). -/
  | csrrci (rd : RegNum) (csr : CsrNum) (uimm : BitVec 5)
  /-- MRET (44 R300). -/
  | mret
  /-- WFI (44 R301). -/
  | wfi
  /-- DRET (44 R302). -/
  | dret
  /-- LR.W (45 R321). -/
  | lrW (aq rl : Bool) (rd rs1 : RegNum)
  /-- SC.W (45 R322). -/
  | scW (aq rl : Bool) (rd rs1 rs2 : RegNum)
  /-- AMOSWAP.W (45 R324). -/
  | amoswapW (aq rl : Bool) (rd rs1 rs2 : RegNum)
  /-- AMOADD.W (45 R325). -/
  | amoaddW (aq rl : Bool) (rd rs1 rs2 : RegNum)
  /-- AMOXOR.W (45 R326). -/
  | amoxorW (aq rl : Bool) (rd rs1 rs2 : RegNum)
  /-- AMOAND.W (45 R327). -/
  | amoandW (aq rl : Bool) (rd rs1 rs2 : RegNum)
  /-- AMOOR.W (45 R328). -/
  | amoorW (aq rl : Bool) (rd rs1 rs2 : RegNum)
  /-- AMOMIN.W (45 R329). -/
  | amominW (aq rl : Bool) (rd rs1 rs2 : RegNum)
  /-- AMOMAX.W (45 R330). -/
  | amomaxW (aq rl : Bool) (rd rs1 rs2 : RegNum)
  /-- AMOMINU.W (45 R331). -/
  | amominuW (aq rl : Bool) (rd rs1 rs2 : RegNum)
  /-- AMOMAXU.W (45 R332). -/
  | amomaxuW (aq rl : Bool) (rd rs1 rs2 : RegNum)
deriving DecidableEq, Repr

end Sys2Proof
end

