-- ==== Sys2Proof/WellFormed.lean ====
section
/-! DEFINITION. Which instruction terms an instruction word can stand for. Every field but two has exactly the
width its encoding gives it; the B and J immediates have an implicit bit 0 equal to 0 (30_encoding R142, R144),
so an odd branch or jump offset has no encoding. -/

namespace Sys2Proof

/-- A branch or jump offset is a multiple of 2: its bit 0 is the implicit 0 of R142 and R144. -/
def evenOffset {n : Nat} (off : BitVec n) : Bool := !off.getLsbD 0

/-- The terms that some instruction word encodes (30_encoding R140 to R146). -/
def Instr.wellFormed : Instr → Bool
  | .jal _ off => evenOffset off
  | .beq _ _ off => evenOffset off
  | .bne _ _ off => evenOffset off
  | .blt _ _ off => evenOffset off
  | .bge _ _ off => evenOffset off
  | .bltu _ _ off => evenOffset off
  | .bgeu _ _ off => evenOffset off
  | .lui _ _ | .auipc _ _ | .jalr _ _ _ => true
  | .lb _ _ _ | .lh _ _ _ | .lw _ _ _ | .lbu _ _ _ | .lhu _ _ _ => true
  | .sb _ _ _ | .sh _ _ _ | .sw _ _ _ => true
  | .addi _ _ _ | .slti _ _ _ | .sltiu _ _ _ | .xori _ _ _ | .ori _ _ _ | .andi _ _ _ => true
  | .slli _ _ _ | .srli _ _ _ | .srai _ _ _ => true
  | .add _ _ _ | .sub _ _ _ | .sll _ _ _ | .slt _ _ _ | .sltu _ _ _ => true
  | .xor _ _ _ | .srl _ _ _ | .sra _ _ _ | .or _ _ _ | .and _ _ _ => true
  | .fence _ _ _ _ _ | .fenceI _ _ _ | .ecall | .ebreak => true
  | .csrrw _ _ _ | .csrrs _ _ _ | .csrrc _ _ _ => true
  | .csrrwi _ _ _ | .csrrsi _ _ _ | .csrrci _ _ _ => true
  | .mret | .wfi | .dret => true
  | .lrW _ _ _ _ | .scW _ _ _ _ _ => true
  | .amoswapW _ _ _ _ _ | .amoaddW _ _ _ _ _ | .amoxorW _ _ _ _ _ => true
  | .amoandW _ _ _ _ _ | .amoorW _ _ _ _ _ => true
  | .amominW _ _ _ _ _ | .amomaxW _ _ _ _ _ | .amominuW _ _ _ _ _ | .amomaxuW _ _ _ _ _ => true

end Sys2Proof
end

