-- ==== Sys2Proof/Decode.lean ====
section
/-! DEFINITION. Decoding (30_encoding R130 to R164) and, after it, encoding.
The decoder follows the tables of R150 to R157, one function for each major opcode; `opcodeRows` is the
match and mask table of R158, kept apart so that the two can be held against each other. -/

namespace Sys2Proof

/-- Why a word or a byte string is no instruction (30_encoding R160, R161). -/
inductive DecodeError where
  /-- Fewer than four bytes: every instruction is 32 bits long (R130). -/
  | tooShort
  /-- `inst[6:0]` is none of the twelve major opcodes (R150). -/
  | opcode
  /-- `funct3` selects nothing in this major opcode (R153 to R157). -/
  | funct3
  /-- `inst[31:25]` selects nothing (R151, R152). -/
  | funct7
  /-- `inst[31:27]` selects no atomic (R157). -/
  | funct5
  /-- LR.W with a non-zero `rs2` field (R164). -/
  | loadReservedRs2
  /-- A SYSTEM word with `funct3` 000 that is none of the five whole words (R156). -/
  | system
deriving DecidableEq, Repr

/-! ### Fields (R131 to R138) -/

/-- `inst[6:0]`. -/
def opcodeOf (w : Word) : BitVec 7 := w.extractLsb' 0 7
/-- `inst[11:7]`. -/
def rdOf (w : Word) : RegNum := w.extractLsb' 7 5
/-- `inst[14:12]`. -/
def funct3Of (w : Word) : BitVec 3 := w.extractLsb' 12 3
/-- `inst[19:15]`, also the 5-bit immediate of the CSR instructions (R146). -/
def rs1Of (w : Word) : RegNum := w.extractLsb' 15 5
/-- `inst[24:20]`, also the shift amount (R145). -/
def rs2Of (w : Word) : RegNum := w.extractLsb' 20 5
/-- `inst[31:25]`. -/
def funct7Of (w : Word) : BitVec 7 := w.extractLsb' 25 7
/-- `inst[31:27]` (R138, atomic). -/
def funct5Of (w : Word) : BitVec 5 := w.extractLsb' 27 5
/-- `inst[26]`. -/
def aqOf (w : Word) : Bool := w.getLsbD 26
/-- `inst[25]`. -/
def rlOf (w : Word) : Bool := w.getLsbD 25
/-- `inst[31:20]`: the I-immediate (R140), the CSR number (R146) or FENCE.I's ignored field. -/
def immIOf (w : Word) : BitVec 12 := w.extractLsb' 20 12
/-- The S-immediate `{inst[31:25], inst[11:7]}` (R141). -/
def immSOf (w : Word) : BitVec 12 := w.extractLsb' 25 7 ++ w.extractLsb' 7 5
/-- The B offset `{inst[31], inst[7], inst[30:25], inst[11:8], 0}` (R142). -/
def offBOf (w : Word) : BitVec 13 :=
  w.extractLsb' 31 1 ++ w.extractLsb' 7 1 ++ w.extractLsb' 25 6 ++ w.extractLsb' 8 4 ++ 0#1
/-- `inst[31:12]` (R143). -/
def immUOf (w : Word) : BitVec 20 := w.extractLsb' 12 20
/-- The J offset `{inst[31], inst[19:12], inst[20], inst[30:21], 0}` (R144). -/
def offJOf (w : Word) : BitVec 21 :=
  w.extractLsb' 31 1 ++ w.extractLsb' 12 8 ++ w.extractLsb' 20 1 ++ w.extractLsb' 21 10 ++ 0#1

/-! ### One function for each major opcode with a choice in it -/

/-- Opcode LOAD (R153). -/
def decodeLoad (w : Word) : Except DecodeError Instr :=
  if funct3Of w = 0b000#3 then .ok (.lb (rdOf w) (rs1Of w) (immIOf w))
  else if funct3Of w = 0b001#3 then .ok (.lh (rdOf w) (rs1Of w) (immIOf w))
  else if funct3Of w = 0b010#3 then .ok (.lw (rdOf w) (rs1Of w) (immIOf w))
  else if funct3Of w = 0b100#3 then .ok (.lbu (rdOf w) (rs1Of w) (immIOf w))
  else if funct3Of w = 0b101#3 then .ok (.lhu (rdOf w) (rs1Of w) (immIOf w))
  else .error .funct3

/-- Opcode STORE (R153). -/
def decodeStore (w : Word) : Except DecodeError Instr :=
  if funct3Of w = 0b000#3 then .ok (.sb (rs1Of w) (rs2Of w) (immSOf w))
  else if funct3Of w = 0b001#3 then .ok (.sh (rs1Of w) (rs2Of w) (immSOf w))
  else if funct3Of w = 0b010#3 then .ok (.sw (rs1Of w) (rs2Of w) (immSOf w))
  else .error .funct3

/-- Opcode MISC-MEM (R155); the fields beside `funct3` take no part (R163). -/
def decodeMiscMem (w : Word) : Except DecodeError Instr :=
  if funct3Of w = 0b000#3 then
    .ok (.fence (w.extractLsb' 28 4) (w.extractLsb' 24 4) (w.extractLsb' 20 4) (rs1Of w) (rdOf w))
  else if funct3Of w = 0b001#3 then .ok (.fenceI (immIOf w) (rs1Of w) (rdOf w))
  else .error .funct3

/-- Opcode OP-IMM (R151). -/
def decodeOpImm (w : Word) : Except DecodeError Instr :=
  if funct3Of w = 0b000#3 then .ok (.addi (rdOf w) (rs1Of w) (immIOf w))
  else if funct3Of w = 0b010#3 then .ok (.slti (rdOf w) (rs1Of w) (immIOf w))
  else if funct3Of w = 0b011#3 then .ok (.sltiu (rdOf w) (rs1Of w) (immIOf w))
  else if funct3Of w = 0b100#3 then .ok (.xori (rdOf w) (rs1Of w) (immIOf w))
  else if funct3Of w = 0b110#3 then .ok (.ori (rdOf w) (rs1Of w) (immIOf w))
  else if funct3Of w = 0b111#3 then .ok (.andi (rdOf w) (rs1Of w) (immIOf w))
  else if funct3Of w = 0b001#3 then
    if funct7Of w = 0b0000000#7 then .ok (.slli (rdOf w) (rs1Of w) (rs2Of w)) else .error .funct7
  else if funct7Of w = 0b0000000#7 then .ok (.srli (rdOf w) (rs1Of w) (rs2Of w))
  else if funct7Of w = 0b0100000#7 then .ok (.srai (rdOf w) (rs1Of w) (rs2Of w))
  else .error .funct7

/-- Opcode OP (R152). -/
def decodeOp (w : Word) : Except DecodeError Instr :=
  if funct7Of w = 0b0000000#7 then
    if funct3Of w = 0b000#3 then .ok (.add (rdOf w) (rs1Of w) (rs2Of w))
    else if funct3Of w = 0b001#3 then .ok (.sll (rdOf w) (rs1Of w) (rs2Of w))
    else if funct3Of w = 0b010#3 then .ok (.slt (rdOf w) (rs1Of w) (rs2Of w))
    else if funct3Of w = 0b011#3 then .ok (.sltu (rdOf w) (rs1Of w) (rs2Of w))
    else if funct3Of w = 0b100#3 then .ok (.xor (rdOf w) (rs1Of w) (rs2Of w))
    else if funct3Of w = 0b101#3 then .ok (.srl (rdOf w) (rs1Of w) (rs2Of w))
    else if funct3Of w = 0b110#3 then .ok (.or (rdOf w) (rs1Of w) (rs2Of w))
    else .ok (.and (rdOf w) (rs1Of w) (rs2Of w))
  else if funct7Of w = 0b0100000#7 then
    if funct3Of w = 0b000#3 then .ok (.sub (rdOf w) (rs1Of w) (rs2Of w))
    else if funct3Of w = 0b101#3 then .ok (.sra (rdOf w) (rs1Of w) (rs2Of w))
    else .error .funct3
  else .error .funct7

/-- Opcode BRANCH (R154). -/
def decodeBranch (w : Word) : Except DecodeError Instr :=
  if funct3Of w = 0b000#3 then .ok (.beq (rs1Of w) (rs2Of w) (offBOf w))
  else if funct3Of w = 0b001#3 then .ok (.bne (rs1Of w) (rs2Of w) (offBOf w))
  else if funct3Of w = 0b100#3 then .ok (.blt (rs1Of w) (rs2Of w) (offBOf w))
  else if funct3Of w = 0b101#3 then .ok (.bge (rs1Of w) (rs2Of w) (offBOf w))
  else if funct3Of w = 0b110#3 then .ok (.bltu (rs1Of w) (rs2Of w) (offBOf w))
  else if funct3Of w = 0b111#3 then .ok (.bgeu (rs1Of w) (rs2Of w) (offBOf w))
  else .error .funct3

/-- Opcode SYSTEM (R156): with `funct3` 000 the whole word is fixed. -/
def decodeSystem (w : Word) : Except DecodeError Instr :=
  if funct3Of w = 0b000#3 then
    if w = 0x00000073#32 then .ok .ecall
    else if w = 0x00100073#32 then .ok .ebreak
    else if w = 0x30200073#32 then .ok .mret
    else if w = 0x10500073#32 then .ok .wfi
    else if w = 0x7B200073#32 then .ok .dret
    else .error .system
  else if funct3Of w = 0b001#3 then .ok (.csrrw (rdOf w) (immIOf w) (rs1Of w))
  else if funct3Of w = 0b010#3 then .ok (.csrrs (rdOf w) (immIOf w) (rs1Of w))
  else if funct3Of w = 0b011#3 then .ok (.csrrc (rdOf w) (immIOf w) (rs1Of w))
  else if funct3Of w = 0b101#3 then .ok (.csrrwi (rdOf w) (immIOf w) (rs1Of w))
  else if funct3Of w = 0b110#3 then .ok (.csrrsi (rdOf w) (immIOf w) (rs1Of w))
  else if funct3Of w = 0b111#3 then .ok (.csrrci (rdOf w) (immIOf w) (rs1Of w))
  else .error .funct3

/-- Opcode AMO (R157): `aq` and `rl` are free, LR.W asks for `rs2` = 0 (R164). -/
def decodeAmo (w : Word) : Except DecodeError Instr :=
  if funct3Of w = 0b010#3 then
    if funct5Of w = 0b00010#5 then
      if rs2Of w = 0#5 then .ok (.lrW (aqOf w) (rlOf w) (rdOf w) (rs1Of w)) else .error .loadReservedRs2
    else if funct5Of w = 0b00011#5 then .ok (.scW (aqOf w) (rlOf w) (rdOf w) (rs1Of w) (rs2Of w))
    else if funct5Of w = 0b00001#5 then .ok (.amoswapW (aqOf w) (rlOf w) (rdOf w) (rs1Of w) (rs2Of w))
    else if funct5Of w = 0b00000#5 then .ok (.amoaddW (aqOf w) (rlOf w) (rdOf w) (rs1Of w) (rs2Of w))
    else if funct5Of w = 0b00100#5 then .ok (.amoxorW (aqOf w) (rlOf w) (rdOf w) (rs1Of w) (rs2Of w))
    else if funct5Of w = 0b01100#5 then .ok (.amoandW (aqOf w) (rlOf w) (rdOf w) (rs1Of w) (rs2Of w))
    else if funct5Of w = 0b01000#5 then .ok (.amoorW (aqOf w) (rlOf w) (rdOf w) (rs1Of w) (rs2Of w))
    else if funct5Of w = 0b10000#5 then .ok (.amominW (aqOf w) (rlOf w) (rdOf w) (rs1Of w) (rs2Of w))
    else if funct5Of w = 0b10100#5 then .ok (.amomaxW (aqOf w) (rlOf w) (rdOf w) (rs1Of w) (rs2Of w))
    else if funct5Of w = 0b11000#5 then .ok (.amominuW (aqOf w) (rlOf w) (rdOf w) (rs1Of w) (rs2Of w))
    else if funct5Of w = 0b11100#5 then .ok (.amomaxuW (aqOf w) (rlOf w) (rdOf w) (rs1Of w) (rs2Of w))
    else .error .funct5
  else .error .funct3

/-- The instruction a word stands for, by its major opcode (R150); every other word is illegal (R160). -/
def decode (w : Word) : Except DecodeError Instr :=
  if opcodeOf w = 0b0000011#7 then decodeLoad w
  else if opcodeOf w = 0b0001111#7 then decodeMiscMem w
  else if opcodeOf w = 0b0010011#7 then decodeOpImm w
  else if opcodeOf w = 0b0010111#7 then .ok (.auipc (rdOf w) (immUOf w))
  else if opcodeOf w = 0b0100011#7 then decodeStore w
  else if opcodeOf w = 0b0101111#7 then decodeAmo w
  else if opcodeOf w = 0b0110011#7 then decodeOp w
  else if opcodeOf w = 0b0110111#7 then .ok (.lui (rdOf w) (immUOf w))
  else if opcodeOf w = 0b1100011#7 then decodeBranch w
  else if opcodeOf w = 0b1100111#7 then
    if funct3Of w = 0b000#3 then .ok (.jalr (rdOf w) (rs1Of w) (immIOf w)) else .error .funct3
  else if opcodeOf w = 0b1101111#7 then .ok (.jal (rdOf w) (offJOf w))
  else if opcodeOf w = 0b1110011#7 then decodeSystem w
  else .error .opcode

/-- The word whose four bytes, lowest address first, are these (20_memory R91, R93). -/
def wordOfBytes (b0 b1 b2 b3 : Byte) : Word := b3 ++ b2 ++ b1 ++ b0

/-- The instruction at the head of a byte string, and the bytes after it (R130: four bytes, no other length). -/
def decodeBytes : List Byte → Except DecodeError (Instr × List Byte)
  | b0 :: b1 :: b2 :: b3 :: rest =>
    match decode (wordOfBytes b0 b1 b2 b3) with
    | .ok i => .ok (i, rest)
    | .error e => .error e
  | _ => .error .tooShort

/-- The four bytes of a word, lowest address first (20_memory R91). -/
def bytesOfWord (w : Word) : List Byte :=
  [w.extractLsb' 0 8, w.extractLsb' 8 8, w.extractLsb' 16 8, w.extractLsb' 24 8]

/-- The instruction the decoder reads from the opcode table's bits `w` of a row of `nbits` bits. -/
def decodeTableWord (nbits w : Nat) : Option Instr :=
  match decodeBytes (bytesOfWord (BitVec.ofNat 32 (w % 2 ^ nbits))) with
  | .ok (i, _) => some i
  | .error _ => none

/-! ### Encoding -/

/-- R-type (R132). -/
def encodeR (funct7 : BitVec 7) (rs2 rs1 : RegNum) (funct3 : BitVec 3) (rd : RegNum) (op : BitVec 7) : Word :=
  funct7 ++ rs2 ++ rs1 ++ funct3 ++ rd ++ op

/-- I-type (R133). -/
def encodeI (imm : BitVec 12) (rs1 : RegNum) (funct3 : BitVec 3) (rd : RegNum) (op : BitVec 7) : Word :=
  imm ++ rs1 ++ funct3 ++ rd ++ op

/-- S-type (R134), of the stores. -/
def encodeS (imm : BitVec 12) (rs2 rs1 : RegNum) (funct3 : BitVec 3) : Word :=
  imm.extractLsb' 5 7 ++ rs2 ++ rs1 ++ funct3 ++ imm.extractLsb' 0 5 ++ 0b0100011#7

/-- B-type (R135), of the branches. -/
def encodeB (off : BitVec 13) (rs2 rs1 : RegNum) (funct3 : BitVec 3) : Word :=
  off.extractLsb' 12 1 ++ off.extractLsb' 5 6 ++ rs2 ++ rs1 ++ funct3 ++ off.extractLsb' 1 4 ++ off.extractLsb' 11 1
    ++ 0b1100011#7

/-- U-type (R136). -/
def encodeU (imm : BitVec 20) (rd : RegNum) (op : BitVec 7) : Word := imm ++ rd ++ op

/-- J-type (R137), of JAL. -/
def encodeJ (off : BitVec 21) (rd : RegNum) : Word :=
  off.extractLsb' 20 1 ++ off.extractLsb' 1 10 ++ off.extractLsb' 11 1 ++ off.extractLsb' 12 8 ++ rd ++ 0b1101111#7

/-- The atomic form of the R-type (R138). -/
def encodeAmo (funct5 : BitVec 5) (aq rl : Bool) (rs2 rs1 rd : RegNum) : Word :=
  funct5 ++ BitVec.ofBool aq ++ BitVec.ofBool rl ++ rs2 ++ rs1 ++ 0b010#3 ++ rd ++ 0b0101111#7

/-- The word of an instruction (R131 to R138, R150 to R157). -/
def encode : Instr → Word
  | .lui rd imm => encodeU imm rd 0b0110111#7
  | .auipc rd imm => encodeU imm rd 0b0010111#7
  | .jal rd off => encodeJ off rd
  | .jalr rd rs1 imm => encodeI imm rs1 0b000#3 rd 0b1100111#7
  | .beq rs1 rs2 off => encodeB off rs2 rs1 0b000#3
  | .bne rs1 rs2 off => encodeB off rs2 rs1 0b001#3
  | .blt rs1 rs2 off => encodeB off rs2 rs1 0b100#3
  | .bge rs1 rs2 off => encodeB off rs2 rs1 0b101#3
  | .bltu rs1 rs2 off => encodeB off rs2 rs1 0b110#3
  | .bgeu rs1 rs2 off => encodeB off rs2 rs1 0b111#3
  | .lb rd rs1 imm => encodeI imm rs1 0b000#3 rd 0b0000011#7
  | .lh rd rs1 imm => encodeI imm rs1 0b001#3 rd 0b0000011#7
  | .lw rd rs1 imm => encodeI imm rs1 0b010#3 rd 0b0000011#7
  | .lbu rd rs1 imm => encodeI imm rs1 0b100#3 rd 0b0000011#7
  | .lhu rd rs1 imm => encodeI imm rs1 0b101#3 rd 0b0000011#7
  | .sb rs1 rs2 imm => encodeS imm rs2 rs1 0b000#3
  | .sh rs1 rs2 imm => encodeS imm rs2 rs1 0b001#3
  | .sw rs1 rs2 imm => encodeS imm rs2 rs1 0b010#3
  | .addi rd rs1 imm => encodeI imm rs1 0b000#3 rd 0b0010011#7
  | .slti rd rs1 imm => encodeI imm rs1 0b010#3 rd 0b0010011#7
  | .sltiu rd rs1 imm => encodeI imm rs1 0b011#3 rd 0b0010011#7
  | .xori rd rs1 imm => encodeI imm rs1 0b100#3 rd 0b0010011#7
  | .ori rd rs1 imm => encodeI imm rs1 0b110#3 rd 0b0010011#7
  | .andi rd rs1 imm => encodeI imm rs1 0b111#3 rd 0b0010011#7
  | .slli rd rs1 shamt => encodeR 0b0000000#7 shamt rs1 0b001#3 rd 0b0010011#7
  | .srli rd rs1 shamt => encodeR 0b0000000#7 shamt rs1 0b101#3 rd 0b0010011#7
  | .srai rd rs1 shamt => encodeR 0b0100000#7 shamt rs1 0b101#3 rd 0b0010011#7
  | .add rd rs1 rs2 => encodeR 0b0000000#7 rs2 rs1 0b000#3 rd 0b0110011#7
  | .sub rd rs1 rs2 => encodeR 0b0100000#7 rs2 rs1 0b000#3 rd 0b0110011#7
  | .sll rd rs1 rs2 => encodeR 0b0000000#7 rs2 rs1 0b001#3 rd 0b0110011#7
  | .slt rd rs1 rs2 => encodeR 0b0000000#7 rs2 rs1 0b010#3 rd 0b0110011#7
  | .sltu rd rs1 rs2 => encodeR 0b0000000#7 rs2 rs1 0b011#3 rd 0b0110011#7
  | .xor rd rs1 rs2 => encodeR 0b0000000#7 rs2 rs1 0b100#3 rd 0b0110011#7
  | .srl rd rs1 rs2 => encodeR 0b0000000#7 rs2 rs1 0b101#3 rd 0b0110011#7
  | .sra rd rs1 rs2 => encodeR 0b0100000#7 rs2 rs1 0b101#3 rd 0b0110011#7
  | .or rd rs1 rs2 => encodeR 0b0000000#7 rs2 rs1 0b110#3 rd 0b0110011#7
  | .and rd rs1 rs2 => encodeR 0b0000000#7 rs2 rs1 0b111#3 rd 0b0110011#7
  | .fence fm pred succ rs1 rd => fm ++ pred ++ succ ++ rs1 ++ 0b000#3 ++ rd ++ 0b0001111#7
  | .fenceI imm rs1 rd => encodeI imm rs1 0b001#3 rd 0b0001111#7
  | .ecall => 0x00000073#32
  | .ebreak => 0x00100073#32
  | .csrrw rd csr rs1 => encodeI csr rs1 0b001#3 rd 0b1110011#7
  | .csrrs rd csr rs1 => encodeI csr rs1 0b010#3 rd 0b1110011#7
  | .csrrc rd csr rs1 => encodeI csr rs1 0b011#3 rd 0b1110011#7
  | .csrrwi rd csr uimm => encodeI csr uimm 0b101#3 rd 0b1110011#7
  | .csrrsi rd csr uimm => encodeI csr uimm 0b110#3 rd 0b1110011#7
  | .csrrci rd csr uimm => encodeI csr uimm 0b111#3 rd 0b1110011#7
  | .mret => 0x30200073#32
  | .wfi => 0x10500073#32
  | .dret => 0x7B200073#32
  | .lrW aq rl rd rs1 => encodeAmo 0b00010#5 aq rl 0#5 rs1 rd
  | .scW aq rl rd rs1 rs2 => encodeAmo 0b00011#5 aq rl rs2 rs1 rd
  | .amoswapW aq rl rd rs1 rs2 => encodeAmo 0b00001#5 aq rl rs2 rs1 rd
  | .amoaddW aq rl rd rs1 rs2 => encodeAmo 0b00000#5 aq rl rs2 rs1 rd
  | .amoxorW aq rl rd rs1 rs2 => encodeAmo 0b00100#5 aq rl rs2 rs1 rd
  | .amoandW aq rl rd rs1 rs2 => encodeAmo 0b01100#5 aq rl rs2 rs1 rd
  | .amoorW aq rl rd rs1 rs2 => encodeAmo 0b01000#5 aq rl rs2 rs1 rd
  | .amominW aq rl rd rs1 rs2 => encodeAmo 0b10000#5 aq rl rs2 rs1 rd
  | .amomaxW aq rl rd rs1 rs2 => encodeAmo 0b10100#5 aq rl rs2 rs1 rd
  | .amominuW aq rl rd rs1 rs2 => encodeAmo 0b11000#5 aq rl rs2 rs1 rd
  | .amomaxuW aq rl rd rs1 rs2 => encodeAmo 0b11100#5 aq rl rs2 rs1 rd

/-! ### The match and mask table -/

/-- A row of the opcode table: a word `w` selects it when `w & mask == match` (R158). -/
structure OpcodeRow where
  pattern : Word
  mask : Word
deriving DecidableEq, Repr

/-- Whether a word selects a row (R158). -/
def OpcodeRow.selects (r : OpcodeRow) (w : Word) : Bool := w &&& r.mask == r.pattern

/-- Rows LUI to SB of the opcode table. -/
def opcodeRows0 : List OpcodeRow := [
  ⟨0x00000037#32, 0x0000007F#32⟩,
  ⟨0x00000017#32, 0x0000007F#32⟩,
  ⟨0x0000006F#32, 0x0000007F#32⟩,
  ⟨0x00000067#32, 0x0000707F#32⟩,
  ⟨0x00000063#32, 0x0000707F#32⟩,
  ⟨0x00001063#32, 0x0000707F#32⟩,
  ⟨0x00004063#32, 0x0000707F#32⟩,
  ⟨0x00005063#32, 0x0000707F#32⟩,
  ⟨0x00006063#32, 0x0000707F#32⟩,
  ⟨0x00007063#32, 0x0000707F#32⟩,
  ⟨0x00000003#32, 0x0000707F#32⟩,
  ⟨0x00001003#32, 0x0000707F#32⟩,
  ⟨0x00002003#32, 0x0000707F#32⟩,
  ⟨0x00004003#32, 0x0000707F#32⟩,
  ⟨0x00005003#32, 0x0000707F#32⟩,
  ⟨0x00000023#32, 0x0000707F#32⟩]

/-- Rows SH to SLTU of the opcode table. -/
def opcodeRows1 : List OpcodeRow := [
  ⟨0x00001023#32, 0x0000707F#32⟩,
  ⟨0x00002023#32, 0x0000707F#32⟩,
  ⟨0x00000013#32, 0x0000707F#32⟩,
  ⟨0x00002013#32, 0x0000707F#32⟩,
  ⟨0x00003013#32, 0x0000707F#32⟩,
  ⟨0x00004013#32, 0x0000707F#32⟩,
  ⟨0x00006013#32, 0x0000707F#32⟩,
  ⟨0x00007013#32, 0x0000707F#32⟩,
  ⟨0x00001013#32, 0xFE00707F#32⟩,
  ⟨0x00005013#32, 0xFE00707F#32⟩,
  ⟨0x40005013#32, 0xFE00707F#32⟩,
  ⟨0x00000033#32, 0xFE00707F#32⟩,
  ⟨0x40000033#32, 0xFE00707F#32⟩,
  ⟨0x00001033#32, 0xFE00707F#32⟩,
  ⟨0x00002033#32, 0xFE00707F#32⟩,
  ⟨0x00003033#32, 0xFE00707F#32⟩]

/-- Rows XOR to MRET of the opcode table. -/
def opcodeRows2 : List OpcodeRow := [
  ⟨0x00004033#32, 0xFE00707F#32⟩,
  ⟨0x00005033#32, 0xFE00707F#32⟩,
  ⟨0x40005033#32, 0xFE00707F#32⟩,
  ⟨0x00006033#32, 0xFE00707F#32⟩,
  ⟨0x00007033#32, 0xFE00707F#32⟩,
  ⟨0x0000000F#32, 0x0000707F#32⟩,
  ⟨0x0000100F#32, 0x0000707F#32⟩,
  ⟨0x00000073#32, 0xFFFFFFFF#32⟩,
  ⟨0x00100073#32, 0xFFFFFFFF#32⟩,
  ⟨0x00001073#32, 0x0000707F#32⟩,
  ⟨0x00002073#32, 0x0000707F#32⟩,
  ⟨0x00003073#32, 0x0000707F#32⟩,
  ⟨0x00005073#32, 0x0000707F#32⟩,
  ⟨0x00006073#32, 0x0000707F#32⟩,
  ⟨0x00007073#32, 0x0000707F#32⟩,
  ⟨0x30200073#32, 0xFFFFFFFF#32⟩]

/-- Rows WFI to AMOMAXU.W of the opcode table. -/
def opcodeRows3 : List OpcodeRow := [
  ⟨0x10500073#32, 0xFFFFFFFF#32⟩,
  ⟨0x7B200073#32, 0xFFFFFFFF#32⟩,
  ⟨0x1000202F#32, 0xF9F0707F#32⟩,
  ⟨0x1800202F#32, 0xF800707F#32⟩,
  ⟨0x0800202F#32, 0xF800707F#32⟩,
  ⟨0x0000202F#32, 0xF800707F#32⟩,
  ⟨0x2000202F#32, 0xF800707F#32⟩,
  ⟨0x6000202F#32, 0xF800707F#32⟩,
  ⟨0x4000202F#32, 0xF800707F#32⟩,
  ⟨0x8000202F#32, 0xF800707F#32⟩,
  ⟨0xA000202F#32, 0xF800707F#32⟩,
  ⟨0xC000202F#32, 0xF800707F#32⟩,
  ⟨0xE000202F#32, 0xF800707F#32⟩]

/-- The 61 rows of spec/opcode_table.json, in its order (R158). -/
def opcodeRows : List OpcodeRow := opcodeRows0 ++ opcodeRows1 ++ opcodeRows2 ++ opcodeRows3

end Sys2Proof
end

