-- ==== Sys2Proof/Machine/Csr.lean ====
section
/-! DEFINITION. The control and status registers (10_state section 5): the 14 of Table 13, what a read gives, what a
write stores, who may access them, and the one operation behind the six CSR instructions (44 R292). -/

namespace Sys2Proof
namespace Machine

/-- The CSRs of Table 13 (10_state R30). -/
inductive Csr where
  | mvendorid
  | marchid
  | mimpid
  | mhartid
  | mstatus
  | misa
  | mie
  | mtvec
  | mepc
  | mcause
  | mtval
  | mip
  | dcsr
  | dpc
deriving DecidableEq, Repr

/-- The CSR of a number; any other number is unimplemented (10_state R30, R31). -/
def csrOfNum (n : CsrNum) : Option Csr :=
  if n = 0xF11#12 then some .mvendorid
  else if n = 0xF12#12 then some .marchid
  else if n = 0xF13#12 then some .mimpid
  else if n = 0xF14#12 then some .mhartid
  else if n = 0x300#12 then some .mstatus
  else if n = 0x301#12 then some .misa
  else if n = 0x304#12 then some .mie
  else if n = 0x305#12 then some .mtvec
  else if n = 0x341#12 then some .mepc
  else if n = 0x342#12 then some .mcause
  else if n = 0x343#12 then some .mtval
  else if n = 0x344#12 then some .mip
  else if n = 0x7B0#12 then some .dcsr
  else if n = 0x7B1#12 then some .dpc
  else none

/-- `csr[11:10] = 11`: read-only (44 R292 step 3). -/
def csrReadOnly : Csr → Bool
  | .mvendorid | .marchid | .mimpid | .mhartid => true
  | .mstatus | .misa | .mie | .mtvec | .mepc | .mcause | .mtval | .mip | .dcsr | .dpc => false

/-- Reachable in D-mode only (10_state R32; 44 R292 step 2). -/
def csrDebugOnly : Csr → Bool
  | .dcsr | .dpc => true
  | .mvendorid | .marchid | .mimpid | .mhartid => false
  | .mstatus | .misa | .mie | .mtvec | .mepc | .mcause | .mtval | .mip => false

/-- `mip`.MTIP: `mtime >= mtimecmp`, unsigned (60 R453). -/
def State.mtip (s : State) : Bool := BitVec.ule s.mtimecmp s.mtime

/-- `mip = (irq[15:0] << 16) | (MTIP << 7) | (MSIP << 3)` (60 R420; 10_state R46). -/
def State.mip (s : State) : Word :=
  (s.irq.setWidth 32 <<< 16) ||| (if s.mtip then 0x80#32 else 0) ||| (if s.msip then 0x8#32 else 0)

/-- The 32-bit read value of a CSR (10_state R34 to R48). -/
def csrRead (c : Csr) (s : State) : Word :=
  match c with
  | .mvendorid => s.cfg.mvendorid
  | .marchid => s.cfg.marchid
  | .mimpid => s.cfg.mimpid
  | .mhartid => s.cfg.mhartid
  | .mstatus => s.mstatus
  | .misa => 0x40000101#32
  | .mie => s.mie
  | .mtvec => s.mtvec
  | .mepc => s.mepc
  | .mcause => s.mcause
  | .mtval => s.mtval
  | .mip => s.mip
  | .dcsr => s.dcsr
  | .dpc => s.dpc

/-- The bits of `mtvec` a write reaches: BASE, and MODE bit 0 where Vectored mode exists (10_state R42). -/
def mtvecMask (cfg : Config) : Word := if cfg.vectored then 0xFFFFFFFD#32 else 0xFFFFFFFC#32

/-- The bits of `dcsr` a write reaches: ebreakm, stepie, stopcount, stoptime, step (44 R304). -/
def dcsrMask : Word := 0x00008E04#32

/-- What a CSR write stores, by the CSR's field rules (44 R304; 10_state R39 to R48). The identity registers,
`misa` and `mip` keep their values. -/
def csrWrite (c : Csr) (v : Word) (s : State) : State :=
  { s with
    mstatus := if c = .mstatus then mstatusWord (v.getLsbD 3) (v.getLsbD 7) else s.mstatus
    mie := if c = .mie then v &&& 0xFFFF0088#32 else s.mie
    mtvec := if c = .mtvec then v &&& mtvecMask s.cfg else s.mtvec
    mepc := if c = .mepc then v &&& 0xFFFFFFFC#32 else s.mepc
    mcause := if c = .mcause then v else s.mcause
    mtval := if c = .mtval then v else s.mtval
    dcsr := if c = .dcsr then (s.dcsr &&& ~~~dcsrMask) ||| (v &&& dcsrMask) else s.dcsr
    dpc := if c = .dpc then v &&& 0xFFFFFFFC#32 else s.dpc }

/-- An Illegal Instruction exception raised by an instruction already decoded: the trap value is its word
(60 R404, R431). -/
def illegal (i : Instr) (s : State) : State := raise .illegalInstruction (encode i) s

/-- The CSR a CSR instruction may access, by existence, privilege and write permission (44 R292 steps 1 to 3). -/
def csrAccess (s : State) (n : CsrNum) (writes : Bool) : Option Csr :=
  match csrOfNum n with
  | none => none
  | some c =>
    if csrDebugOnly c && s.mode == .M then none
    else if writes && csrReadOnly c then none
    else some c

/-- The common rule of the six CSR instructions (44 R292): `i` is the instruction itself, for the trap value;
`writes` says whether it would write (R296) and `new` what, from the value read. -/
def csrInstr (i : Instr) (rd : RegNum) (n : CsrNum) (writes : Bool) (new : Word → Word) (s : State) : Out :=
  match csrAccess s n writes with
  | none => .next (illegal i s)
  | some c =>
    let old := csrRead c s
    writeRd rd old (if writes then csrWrite c (new old) s else s)

end Machine
end Sys2Proof
end

