-- ==== Sys2Proof/Machine/Debug.lean ====
section
/-! DEFINITION. The Debug Module as the source describes it (60 R470 to R485): the hart's state as it sees it, the
Access Register command, `cmderr`, and what each input of the platform and the debugger does to the machine. -/

namespace Sys2Proof
namespace Machine

/-- The four states of a hart the Debug Module tells apart (60 R481). -/
inductive HartStatus where
  | nonExistent
  | unavailable
  | running
  | halted
deriving DecidableEq, Repr

/-- The state of the selected hart (60 R481): hart 0 is the only one. -/
def State.hartStatus (s : State) : HartStatus :=
  if s.dm.hartsel ≠ 0 then .nonExistent
  else if s.inReset then .unavailable
  else if s.mode = .D then .halted
  else .running

/-- `haltsum0`: bit 0 says whether the hart is halted, other bits are 0 (60 R480). -/
def State.haltsum0 (s : State) : Word := if !s.inReset && s.mode == .D then 1 else 0

/-! ### Reading the Debug Module's registers (60 R480) -/

/-- The registers the source names, and `data0` and the program buffer (60 R480). -/
inductive DmReg where
  | data0
  | dmcontrol
  | dmstatus
  | abstractcs
  | command
  | progbuf (index : Nat)
  | haltsum0
deriving DecidableEq, Repr

/-- The register at an address of the Debug Module's own space (60 R480); `none` is unimplemented. The program buffer
has as many of the sixteen addresses from 0x20 on as it has words (log 5). -/
def dmReg (s : State) (addr : Nat) : Option DmReg :=
  if addr = 0x04 then some .data0
  else if addr = 0x10 then some .dmcontrol
  else if addr = 0x11 then some .dmstatus
  else if addr = 0x16 then some .abstractcs
  else if addr = 0x17 then some .command
  else if addr = 0x40 then some .haltsum0
  else if 0x20 ≤ addr ∧ addr < 0x30 ∧ addr - 0x20 < s.dm.progbuf.length then some (.progbuf (addr - 0x20))
  else none

/-- `known` in the bits of `mask`; the bits no source describes are free (60 R480; log 28). -/
def dmPart (s : State) (addr : Nat) (mask known : Word) : Word :=
  (known &&& mask) ||| (Config.dmOther addr s.free &&& ~~~mask)

/-- `dmcontrol` reads `hartsel`, low ten bits in 25:16 and high ten in 15:6. PRESUMED, log 28: the places are the
RISC-V Debug specification's. -/
def State.dmcontrol (s : State) : Word :=
  dmPart s 0x10 0x03FFFFC0#32
    (((BitVec.ofNat 10 s.dm.hartsel).setWidth 32 <<< 16) |||
      ((BitVec.ofNat 10 (s.dm.hartsel / 1024)).setWidth 32 <<< 6))

/-- The bits of `dmstatus` that say a hart is in this state, `any` and `all`. PRESUMED, log 28: the places are the
RISC-V Debug specification's. -/
def HartStatus.bits : HartStatus → Word
  | .halted => 0x00000300#32
  | .running => 0x00000C00#32
  | .unavailable => 0x00003000#32
  | .nonExistent => 0x0000C000#32

/-- `dmstatus` reads the state of the selected hart (60 R480, R481). -/
def State.dmstatus (s : State) : Word := dmPart s 0x11 0x0000FF00#32 s.hartStatus.bits

/-- `abstractcs` reads `cmderr` in bits 10:8 (60 R479). -/
def State.abstractcs (s : State) : Word := dmPart s 0x16 0x00000700#32 (s.dm.cmderr.setWidth 32 <<< 8)

/-- What the debugger reads at an address of the Debug Module: an unimplemented register returns 0 (60 R480).
`command` reads as it is held. DEDUCED, log 28: its `regno` field moves on after a command (R478). -/
def State.dmRead (s : State) (addr : Nat) : Word :=
  match dmReg s addr with
  | some .data0 => s.dm.data0
  | some .dmcontrol => s.dmcontrol
  | some .dmstatus => s.dmstatus
  | some .abstractcs => s.abstractcs
  | some .command => s.dm.command
  | some (.progbuf k) => s.dm.progbuf.getD k 0
  | some .haltsum0 => s.haltsum0
  | none => 0

/-! ### The Access Register command (60 R478) -/

/-- The read of a register by the Access Register command (60 R478): CSRs by number at 0x0000, general registers at
0x1000; `none` where `regno` names no register. -/
def debugRegRead (regno : BitVec 16) (s : State) : Option Word :=
  if regno.toNat < 0x1000 then (csrOfNum (regno.setWidth 12)).map (fun c => csrRead c s)
  else if regno.toNat < 0x1020 then some (s.getReg (regno.setWidth 5))
  else none

/-- The write of a register by the Access Register command, obeying the CSR's field rules (60 R478).
DESIGN CHOICE, log 27: a write to a read-only CSR, of which the spec says no more than that, completes without
changing anything and without an error. -/
def debugRegWrite (regno : BitVec 16) (v : Word) (s : State) : Option State :=
  if regno.toNat < 0x1000 then (csrOfNum (regno.setWidth 12)).map (fun c => csrWrite c v s)
  else if regno.toNat < 0x1020 then some (s.setReg (regno.setWidth 5) v)
  else none

/-- `cmderr` set, unless an earlier error stands (60 R479). -/
def State.setError (code : BitVec 3) (s : State) : State := { s with dm := s.dm.setError code }

/-- The transfer of the Access Register command, `none` where it fails with `cmderr` 2 (60 R478). -/
def commandTransfer (v : Word) (s : State) : Option State :=
  if v.getLsbD 17 = false then some s
  else if v.extractLsb' 20 3 ≠ 2#3 then none
  else if v.getLsbD 16 = false then
    (debugRegRead (v.extractLsb' 0 16) s).map (fun r => { s with dm := { s.dm with data0 := r } })
  else debugRegWrite (v.extractLsb' 0 16) s.dm.data0 s

/-- After the transfer: `regno` moves on if asked, and the program buffer starts if asked (60 R478). -/
def commandFinish (v : Word) (s : State) : State :=
  { s with
    dm :=
      { s.dm with
        command := if v.getLsbD 19 then v.extractLsb' 16 16 ++ (v.extractLsb' 0 16 + 1) else v
        pbIndex := if v.getLsbD 18 then some 0 else s.dm.pbIndex } }

/-- A debugger write of `v` to `command` (60 R478). While the program buffer runs the error is Busy (60 R479;
DEDUCED from Table 12, log 5). DESIGN CHOICE, log 27: bit 23, which Table 10 gives as zero, is ignored. -/
def writeCommand (v : Word) (s : State) : State :=
  if s.dm.cmderr ≠ 0 then s
  else
    let s' := { s with dm := { s.dm with command := v } }
    if v.extractLsb' 24 8 ≠ 0#8 then s'.setError 2
    else if s.dm.pbIndex.isSome then s.setError 1
    else if s.hartStatus ≠ .halted then s'.setError 4
    else
      match commandTransfer v s' with
      | none => s'.setError 2
      | some t => commandFinish v t

/-- Reset asserted: the hart is Unavailable and does nothing (60 R481). -/
def assertReset (s : State) : State :=
  { s with
    inReset := true
    mode := .M
    waiting := false
    stepping := false
    reservation := none
    scLoop := none
    scParked := []
    dm := { s.dm with pbIndex := none } }

/-- Reset released: the state of 70 R500, or D-mode with cause 5 where halt-on-reset is armed (70 R502). -/
def releaseReset (u : ResetValues) (s : State) : State :=
  if s.inReset then
    if s.dm.resetHaltReq then enterDebug 5 s.cfg.resetAddr (s.afterReset u) else s.afterReset u
  else s

/-- A resume request: a halted hart leaves D-mode (60 R477); not while it runs the program buffer (log 5). -/
def resumeRequest (s : State) : State :=
  if s.hartStatus = .halted ∧ s.dm.pbIndex = none then leaveDebug s else s

/-- What one input does to the machine (00_scope R17). -/
def applyInput (s : State) : Input → State
  | .irq lines => { s with irq := lines }
  | .busWrite cell value => writeStorage .byte cell (value.setWidth 32) s
  | .busTimer contents => setTimer contents s
  | .assertReset => assertReset s
  | .releaseReset values => releaseReset values s
  | .haltreq on => if s.dm.hartsel = 0 then { s with dm := { s.dm with haltreq := on } } else s
  | .hartsel hart => { s with dm := { s.dm with hartsel := hart } }
  | .resetHaltReq on => if s.dm.hartsel = 0 then { s with dm := { s.dm with resetHaltReq := on } } else s
  | .resumereq => resumeRequest s
  | .command value => writeCommand value s
  | .abstractcs value => { s with dm := { s.dm with cmderr := s.dm.cmderr &&& ~~~(value.extractLsb' 8 3) } }
  | .data0 value => { s with dm := { s.dm with data0 := value } }
  | .progbuf index value => { s with dm := { s.dm with progbuf := s.dm.progbuf.set index value } }

/-- The inputs of this boundary, in order; none when the list is empty (log 3). -/
def deliver (s : State) : State :=
  match s.inbox with
  | [] => s
  | batch :: rest => batch.foldl applyInput { s with inbox := rest }

end Machine
end Sys2Proof
end

