-- ==== Sys2Proof/Machine/Flags.lean ====
section
/-! DEFINITION. The relational results. The hardware has no status flags, condition codes or predicates (10_state
R24): a comparison leaves 1 or 0 in a register (40 R223) or decides a branch (41 R251). -/

namespace Sys2Proof
namespace Machine

/-- `a <s b`: the two's-complement readings compared (00_scope R10; 40 R223). -/
def ltSigned (a b : Word) : Bool := BitVec.slt a b

/-- `a <u b`: the natural-number readings compared (00_scope R10; 40 R223). -/
def ltUnsigned (a b : Word) : Bool := BitVec.ult a b

/-- A comparison as a full 32-bit 1 or 0 (40 R223). -/
def boolWord (b : Bool) : Word := if b then 1 else 0

end Machine
end Sys2Proof
end

