-- ==== Sys2Proof/Machine/Operands.lean ====
section
/-! DEFINITION. Operand forms: sign-extended immediates (30 R140 to R146), effective addresses (42 R260), shift
amounts (30 R145), the results of the ALU (40 R223) and the widening of loaded values (42 R261 to R265). -/

namespace Sys2Proof
namespace Machine

/-- `sext_N(v)` for an immediate or offset of N bits (00_scope R10; 30 R140, R141, R142, R144). -/
def sext {n : Nat} (v : BitVec n) : Word := v.signExtend 32

/-- `immU = {inst[31:12], 12'b0}` (30 R143). -/
def immU (imm : BitVec 20) : Word := imm ++ 0#12

/-- `zext_5(inst[19:15])`, the source of the immediate CSR instructions (30 R146). -/
def zext5 (u : BitVec 5) : Word := u.setWidth 32

/-- `ea = x[rs1] + imm` modulo 2^32 (42 R260). -/
def State.effectiveAddress (s : State) (rs1 : RegNum) (imm : BitVec 12) : Word := s.getReg rs1 + sext imm

/-- `x[rs2][4:0]`, the amount of SLL, SRL and SRA (30 R145). -/
def shiftAmount (v : Word) : BitVec 5 := v.extractLsb' 0 5

/-- Left shift, zeros entering (40 R223). -/
def shiftLeft (v : Word) (amount : BitVec 5) : Word := v <<< amount.toNat

/-- Logical right shift, zeros entering (40 R223). -/
def shiftRightLogical (v : Word) (amount : BitVec 5) : Word := v >>> amount.toNat

/-- Arithmetic right shift, copies of bit 31 entering (40 R223). -/
def shiftRightArith (v : Word) (amount : BitVec 5) : Word := v.sshiftRight amount.toNat

/-- `sext_8` of the low byte (42 R261). -/
def sextByte (v : Word) : Word := (v.setWidth 8).signExtend 32

/-- `sext_16` of the low halfword (42 R262). -/
def sextHalf (v : Word) : Word := (v.setWidth 16).signExtend 32

/-- `zext_8` of the low byte (42 R264). -/
def zextByte (v : Word) : Word := (v.setWidth 8).setWidth 32

/-- `zext_16` of the low halfword (42 R265). -/
def zextHalf (v : Word) : Word := (v.setWidth 16).setWidth 32

/-- The signed minimum as AMOMIN.W takes it (45 R329). -/
def minSigned (old b : Word) : Word := if ltSigned old b then old else b

/-- The signed maximum as AMOMAX.W takes it (45 R330). -/
def maxSigned (old b : Word) : Word := if ltSigned b old then old else b

/-- The unsigned minimum as AMOMINU.W takes it (45 R331). -/
def minUnsigned (old b : Word) : Word := if ltUnsigned old b then old else b

/-- The unsigned maximum as AMOMAXU.W takes it (45 R332). -/
def maxUnsigned (old b : Word) : Word := if ltUnsigned b old then old else b

end Machine
end Sys2Proof
end

