-- ==== Sys2Proof/Machine/Atomic.lean ====
section
/-! DEFINITION. The atomic instructions (45_atomics). The `aq` and `rl` bits are accepted and have no effect, since
every access is complete before the next is issued (R320). -/

namespace Sys2Proof
namespace Machine

/-- The common rule of the nine AMOs (R323): alignment, one read, one write, the old value in `rd`; an error on
either half is Store Access Fault. -/
def amoOp (f : Word → Word → Word) (rd rs1 rs2 : RegNum) (s : State) : Out :=
  let a := s.getReg rs1
  let b := s.getReg rs2
  if AccessSize.word.aligned a then
    match memRead .word a s with
    | (s', none) => .next (raise .storeAccessFault a s')
    | (s', some old) =>
      match memWrite .word a (f old b) s' with
      | (s'', true) => writeRd rd old s''
      | (s'', false) => .next (raise .storeAccessFault a s'')
  else .next (raise .storeAddressMisaligned a s)

/-! ### Constrained LR/SC loops (45 R335) -/

/-- The loop an LR.W of M-mode begins an attempt of: the one a failed SC.W and its backward branch have led back to,
otherwise a new one that starts here. -/
def State.loopAtLr (s : State) : Option ScLoop :=
  match s.mode with
  | .M =>
    match s.scLoop with
    | some { start, phase := .retrying, left } => some { start, phase := .trying, left }
    | _ => some { start := s.pc, phase := .trying, left := none }
  | .D => none

/-- An SC.W to `a` ends a constrained attempt on the word of its LR.W; the loop, and the spurious failures still to
come before it succeeds: any number, drawn at the first (R335, log 15). -/
def State.constrained (s : State) (a : Word) : Option (ScLoop × Nat) :=
  match s.scLoop with
  | some l =>
    if l.phase = .trying ∧ s.reservation = some a then some (l, l.left.getD (Config.spuriousRun s.free)) else none
  | none => none

/-- `spurious_fail()` (R322): in a constrained loop, as long as failures are still to come; elsewhere a free value. -/
def State.spurious (s : State) (a : Word) : Bool :=
  match s.constrained a with
  | some (_, n) => n != 0
  | none => Config.spuriousFail s.free

/-- The loop after an SC.W to `a` that failed: in a constrained loop one failure less is still to come. -/
def State.loopAfterFailure (s : State) (a : Word) : Option ScLoop :=
  (s.constrained a).map (fun p => { p.1 with phase := .failed, left := some (p.2 - 1) })

/-! ### The instructions -/

/-- LR.W (R321). -/
def execLrW (_aq _rl : Bool) (rd rs1 : RegNum) (s : State) : Out :=
  let a := s.getReg rs1
  if AccessSize.word.aligned a then
    match memRead .word a s with
    | (s', some v) => writeRd rd v { s' with reservation := some a, scLoop := s.loopAtLr }
    | (s', none) => .next (raise .loadAccessFault a s')
  else .next (raise .loadAddressMisaligned a s)

/-- SC.W (R322): it stores when the reservation covers the address and no spurious failure occurs (R335; U19, log
15); `rd` takes 0 for success, 1 for failure, and the reservation is invalid afterwards. -/
def execScW (_aq _rl : Bool) (rd rs1 rs2 : RegNum) (s : State) : Out :=
  let a := s.getReg rs1
  let b := s.getReg rs2
  if AccessSize.word.aligned a then
    if s.reserves a && !s.spurious a then
      match memWrite .word a b s with
      | (s', true) => writeRd rd 0 { s' with reservation := none, scLoop := none }
      | (s', false) => .next (raise .storeAccessFault a s')
    else writeRd rd 1 { s with reservation := none, scLoop := s.loopAfterFailure a }
  else .next (raise .storeAddressMisaligned a s)

/-- AMOSWAP.W (R324). -/
def execAmoswapW (_aq _rl : Bool) (rd rs1 rs2 : RegNum) (s : State) : Out := amoOp (fun _ b => b) rd rs1 rs2 s

/-- AMOADD.W (R325). -/
def execAmoaddW (_aq _rl : Bool) (rd rs1 rs2 : RegNum) (s : State) : Out := amoOp (fun old b => old + b) rd rs1 rs2 s

/-- AMOXOR.W (R326). -/
def execAmoxorW (_aq _rl : Bool) (rd rs1 rs2 : RegNum) (s : State) : Out := amoOp (fun old b => old ^^^ b) rd rs1 rs2 s

/-- AMOAND.W (R327). -/
def execAmoandW (_aq _rl : Bool) (rd rs1 rs2 : RegNum) (s : State) : Out := amoOp (fun old b => old &&& b) rd rs1 rs2 s

/-- AMOOR.W (R328). -/
def execAmoorW (_aq _rl : Bool) (rd rs1 rs2 : RegNum) (s : State) : Out := amoOp (fun old b => old ||| b) rd rs1 rs2 s

/-- AMOMIN.W (R329). -/
def execAmominW (_aq _rl : Bool) (rd rs1 rs2 : RegNum) (s : State) : Out := amoOp minSigned rd rs1 rs2 s

/-- AMOMAX.W (R330). -/
def execAmomaxW (_aq _rl : Bool) (rd rs1 rs2 : RegNum) (s : State) : Out := amoOp maxSigned rd rs1 rs2 s

/-- AMOMINU.W (R331). -/
def execAmominuW (_aq _rl : Bool) (rd rs1 rs2 : RegNum) (s : State) : Out := amoOp minUnsigned rd rs1 rs2 s

/-- AMOMAXU.W (R332). -/
def execAmomaxuW (_aq _rl : Bool) (rd rs1 rs2 : RegNum) (s : State) : Out := amoOp maxUnsigned rd rs1 rs2 s

end Machine
end Sys2Proof
end

