-- ==== Sys2Proof/Machine/Control.lean ====
section
/-! DEFINITION. The control transfer instructions (41_control_transfer). In D-mode, from the program buffer, their
register result and the place they go to are unspecified (60 R476; U14): both are free values (log 16). -/

namespace Sys2Proof
namespace Machine

/-- `target[1:0] != 0` (41 R243). -/
def misalignedTarget (target : Word) : Bool := target.toNat % 4 != 0

/-- A taken transfer in M-mode (41 R243): with `at_jump` reporting a misaligned target raises the exception on the
jump itself, which then writes nothing; otherwise `link` is done and the pc is the target. -/
def jumpTo (target : Word) (link : State → State) (s : State) : State :=
  if misalignedTarget target && s.cfg.misaligned == .atJump then raise .instructionAddressMisaligned target s
  else { link s with pc := target }

/-- A control transfer from the program buffer: it goes on at an unspecified place (60 R476; U14, log 16). -/
def debugTransfer (s : State) : State :=
  { s with dm := { s.dm with pbIndex := s.dm.pbIndex.map (fun _ => Config.debugTarget s.free) } }

/-- A jump with link: JAL and JALR differ in the target only (41 R241, R242). -/
def linkAndJump (rd : RegNum) (target : Word) (s : State) : Out :=
  if s.mode = .M then .next (jumpTo target (fun t => t.setReg rd (s.pc + 4)) s)
  else .next (debugTransfer (s.setReg rd (Config.debugResult s.free)))

/-- The common branch rule (41 R251). -/
def branch (taken : Bool) (off : BitVec 13) (s : State) : Out :=
  if s.mode = .M then .next (if taken then jumpTo (s.pc + sext off) id s else s.advance)
  else .next (debugTransfer s)

/-- JAL (R241). -/
def execJal (rd : RegNum) (off : BitVec 21) (s : State) : Out := linkAndJump rd (s.pc + sext off) s

/-- JALR (R242): bit 0 of the sum is cleared. -/
def execJalr (rd rs1 : RegNum) (imm : BitVec 12) (s : State) : Out :=
  linkAndJump rd ((s.getReg rs1 + sext imm) &&& 0xFFFFFFFE#32) s

/-- BEQ (R244). -/
def execBeq (rs1 rs2 : RegNum) (off : BitVec 13) (s : State) : Out := branch (s.getReg rs1 == s.getReg rs2) off s

/-- BNE (R245). -/
def execBne (rs1 rs2 : RegNum) (off : BitVec 13) (s : State) : Out := branch (s.getReg rs1 != s.getReg rs2) off s

/-- BLT (R246). -/
def execBlt (rs1 rs2 : RegNum) (off : BitVec 13) (s : State) : Out :=
  branch (ltSigned (s.getReg rs1) (s.getReg rs2)) off s

/-- BGE (R247). -/
def execBge (rs1 rs2 : RegNum) (off : BitVec 13) (s : State) : Out :=
  branch (!ltSigned (s.getReg rs1) (s.getReg rs2)) off s

/-- BLTU (R248). -/
def execBltu (rs1 rs2 : RegNum) (off : BitVec 13) (s : State) : Out :=
  branch (ltUnsigned (s.getReg rs1) (s.getReg rs2)) off s

/-- BGEU (R249). -/
def execBgeu (rs1 rs2 : RegNum) (off : BitVec 13) (s : State) : Out :=
  branch (!ltUnsigned (s.getReg rs1) (s.getReg rs2)) off s

end Machine
end Sys2Proof
end

