-- ==== Sys2Proof/Machine/Fence.lean ====
section
/-! DEFINITION. The memory ordering instructions (43_fence). -/

namespace Sys2Proof
namespace Machine

/-- FENCE (R280): every data access is complete when the next begins (20_memory R110), so nothing is left to
order; the fields take no part (30 R163). -/
def execFence (_fm _pred _succ : BitVec 4) (_rs1 _rd : RegNum) (s : State) : Out := .next s.advance

/-- FENCE.I (R281): every word fetched early is dropped, so that the next fetches see the stores before it; illegal
when HAS_ZIFENCEI is false. -/
def execFenceI (imm : BitVec 12) (rs1 rd : RegNum) (s : State) : Out :=
  if s.cfg.hasZifencei then .next { s.advance with stale := [] }
  else .next (illegal (.fenceI imm rs1 rd) s)

end Machine
end Sys2Proof
end

