-- ==== Sys2Proof/Machine/Integer.lean ====
section
/-! DEFINITION. The integer computational instructions (40_integer_computational): each computes a 32-bit result,
writes it to `x[rd]` and goes on; none accesses memory or raises an exception of its own (R200). -/

namespace Sys2Proof
namespace Machine

/-- LUI (R201): `x[rd] <- immU`. -/
def execLui (rd : RegNum) (imm : BitVec 20) (s : State) : Out := writeRd rd (immU imm) s

/-- AUIPC (R202): `x[rd] <- pc + immU`. In D-mode, where `pc` is not meaningful, the result is unspecified
(60 R476; U14, log 16). -/
def execAuipc (rd : RegNum) (imm : BitVec 20) (s : State) : Out :=
  writeRd rd (if s.mode = .M then s.pc + immU imm else Config.debugResult s.free) s

/-- ADDI (R203). -/
def execAddi (rd rs1 : RegNum) (imm : BitVec 12) (s : State) : Out := writeRd rd (s.getReg rs1 + sext imm) s

/-- SLTI (R204). -/
def execSlti (rd rs1 : RegNum) (imm : BitVec 12) (s : State) : Out :=
  writeRd rd (boolWord (ltSigned (s.getReg rs1) (sext imm))) s

/-- SLTIU (R205): the immediate is sign-extended, then compared unsigned. -/
def execSltiu (rd rs1 : RegNum) (imm : BitVec 12) (s : State) : Out :=
  writeRd rd (boolWord (ltUnsigned (s.getReg rs1) (sext imm))) s

/-- XORI (R206). -/
def execXori (rd rs1 : RegNum) (imm : BitVec 12) (s : State) : Out := writeRd rd (s.getReg rs1 ^^^ sext imm) s

/-- ORI (R207). -/
def execOri (rd rs1 : RegNum) (imm : BitVec 12) (s : State) : Out := writeRd rd (s.getReg rs1 ||| sext imm) s

/-- ANDI (R208). -/
def execAndi (rd rs1 : RegNum) (imm : BitVec 12) (s : State) : Out := writeRd rd (s.getReg rs1 &&& sext imm) s

/-- SLLI (R209). -/
def execSlli (rd rs1 : RegNum) (shamt : BitVec 5) (s : State) : Out := writeRd rd (shiftLeft (s.getReg rs1) shamt) s

/-- SRLI (R210). -/
def execSrli (rd rs1 : RegNum) (shamt : BitVec 5) (s : State) : Out :=
  writeRd rd (shiftRightLogical (s.getReg rs1) shamt) s

/-- SRAI (R211). -/
def execSrai (rd rs1 : RegNum) (shamt : BitVec 5) (s : State) : Out :=
  writeRd rd (shiftRightArith (s.getReg rs1) shamt) s

/-- ADD (R212). -/
def execAdd (rd rs1 rs2 : RegNum) (s : State) : Out := writeRd rd (s.getReg rs1 + s.getReg rs2) s

/-- SUB (R213). -/
def execSub (rd rs1 rs2 : RegNum) (s : State) : Out := writeRd rd (s.getReg rs1 - s.getReg rs2) s

/-- SLL (R214): the amount is `x[rs2][4:0]`. -/
def execSll (rd rs1 rs2 : RegNum) (s : State) : Out :=
  writeRd rd (shiftLeft (s.getReg rs1) (shiftAmount (s.getReg rs2))) s

/-- SLT (R215). -/
def execSlt (rd rs1 rs2 : RegNum) (s : State) : Out :=
  writeRd rd (boolWord (ltSigned (s.getReg rs1) (s.getReg rs2))) s

/-- SLTU (R216). -/
def execSltu (rd rs1 rs2 : RegNum) (s : State) : Out :=
  writeRd rd (boolWord (ltUnsigned (s.getReg rs1) (s.getReg rs2))) s

/-- XOR (R217). -/
def execXor (rd rs1 rs2 : RegNum) (s : State) : Out := writeRd rd (s.getReg rs1 ^^^ s.getReg rs2) s

/-- SRL (R218). -/
def execSrl (rd rs1 rs2 : RegNum) (s : State) : Out :=
  writeRd rd (shiftRightLogical (s.getReg rs1) (shiftAmount (s.getReg rs2))) s

/-- SRA (R219). -/
def execSra (rd rs1 rs2 : RegNum) (s : State) : Out :=
  writeRd rd (shiftRightArith (s.getReg rs1) (shiftAmount (s.getReg rs2))) s

/-- OR (R220). -/
def execOr (rd rs1 rs2 : RegNum) (s : State) : Out := writeRd rd (s.getReg rs1 ||| s.getReg rs2) s

/-- AND (R221). -/
def execAnd (rd rs1 rs2 : RegNum) (s : State) : Out := writeRd rd (s.getReg rs1 &&& s.getReg rs2) s

end Machine
end Sys2Proof
end

