-- ==== Sys2Proof/Machine/LoadStore.lean ====
section
/-! DEFINITION. The load and store instructions (42_load_store), over one load and one store in the order of R269:
effective address, alignment, the single transfer, the result. -/

namespace Sys2Proof
namespace Machine

/-- A load of this size, its value widened by `ext` (42 R269). -/
def loadOp (size : AccessSize) (ext : Word → Word) (rd : RegNum) (ea : Word) (s : State) : Out :=
  if size.aligned ea then
    match memRead size ea s with
    | (s', some v) => writeRd rd (ext v) s'
    | (s', none) => .next (raise .loadAccessFault ea s')
  else .next (raise .loadAddressMisaligned ea s)

/-- A store of this size of the low bytes of `v` (42 R269). -/
def storeOp (size : AccessSize) (ea v : Word) (s : State) : Out :=
  if size.aligned ea then
    match memWrite size ea v s with
    | (s', true) => .next s'.advance
    | (s', false) => .next (raise .storeAccessFault ea s')
  else .next (raise .storeAddressMisaligned ea s)

/-- LB (R261). -/
def execLb (rd rs1 : RegNum) (imm : BitVec 12) (s : State) : Out :=
  loadOp .byte sextByte rd (s.effectiveAddress rs1 imm) s

/-- LH (R262). -/
def execLh (rd rs1 : RegNum) (imm : BitVec 12) (s : State) : Out :=
  loadOp .half sextHalf rd (s.effectiveAddress rs1 imm) s

/-- LW (R263). -/
def execLw (rd rs1 : RegNum) (imm : BitVec 12) (s : State) : Out :=
  loadOp .word id rd (s.effectiveAddress rs1 imm) s

/-- LBU (R264). -/
def execLbu (rd rs1 : RegNum) (imm : BitVec 12) (s : State) : Out :=
  loadOp .byte zextByte rd (s.effectiveAddress rs1 imm) s

/-- LHU (R265). -/
def execLhu (rd rs1 : RegNum) (imm : BitVec 12) (s : State) : Out :=
  loadOp .half zextHalf rd (s.effectiveAddress rs1 imm) s

/-- SB (R266). -/
def execSb (rs1 rs2 : RegNum) (imm : BitVec 12) (s : State) : Out :=
  storeOp .byte (s.effectiveAddress rs1 imm) (s.getReg rs2) s

/-- SH (R267). -/
def execSh (rs1 rs2 : RegNum) (imm : BitVec 12) (s : State) : Out :=
  storeOp .half (s.effectiveAddress rs1 imm) (s.getReg rs2) s

/-- SW (R268). -/
def execSw (rs1 rs2 : RegNum) (imm : BitVec 12) (s : State) : Out :=
  storeOp .word (s.effectiveAddress rs1 imm) (s.getReg rs2) s

end Machine
end Sys2Proof
end

