-- ==== Sys2Proof/Machine/System.lean ====
section
/-! DEFINITION. The system, CSR and privileged instructions (44_system_csr). -/

namespace Sys2Proof
namespace Machine

/-- ECALL (R290): Env call from M-mode with trap value 0. In D-mode no source describes it (R305; U14). -/
def execEcall (s : State) : Out :=
  if s.mode = .M then .next (raise .envCallFromMMode 0 s) else .refused .ecallInDebugMode

/-- EBREAK (R291): D-mode with cause 1 when `dcsr`.ebreakm is set; else a Breakpoint whose trap value is the address
of the EBREAK or 0, unspecified which (60 R431; U5, log 12). In D-mode it ends the program buffer. -/
def execEbreak (s : State) : Out :=
  if s.mode = .M then
    if s.dcsrEbreakm then .next (enterDebug 1 s.pc s)
    else .next (raise .breakpoint (if Config.breakpointTval s.free then s.pc else 0) s)
  else .next { s with dm := { s.dm with pbIndex := none } }

/-- CSRRW (R293): always writes `x[rs1]` (R296). -/
def execCsrrw (rd : RegNum) (csr : CsrNum) (rs1 : RegNum) (s : State) : Out :=
  csrInstr (.csrrw rd csr rs1) rd csr true (fun _ => s.getReg rs1) s

/-- CSRRS (R294): writes `old | x[rs1]` when the register number is not 0 (R296). -/
def execCsrrs (rd : RegNum) (csr : CsrNum) (rs1 : RegNum) (s : State) : Out :=
  csrInstr (.csrrs rd csr rs1) rd csr (rs1 != 0) (fun old => old ||| s.getReg rs1) s

/-- CSRRC (R295): writes `old & ~x[rs1]` when the register number is not 0 (R296). -/
def execCsrrc (rd : RegNum) (csr : CsrNum) (rs1 : RegNum) (s : State) : Out :=
  csrInstr (.csrrc rd csr rs1) rd csr (rs1 != 0) (fun old => old &&& ~~~(s.getReg rs1)) s

/-- CSRRWI (R297): always writes `zext_5(uimm)` (R296). -/
def execCsrrwi (rd : RegNum) (csr : CsrNum) (uimm : BitVec 5) (s : State) : Out :=
  csrInstr (.csrrwi rd csr uimm) rd csr true (fun _ => zext5 uimm) s

/-- CSRRSI (R298): writes `old | zext_5(uimm)` when `uimm` is not 0 (R296). -/
def execCsrrsi (rd : RegNum) (csr : CsrNum) (uimm : BitVec 5) (s : State) : Out :=
  csrInstr (.csrrsi rd csr uimm) rd csr (uimm != 0) (fun old => old ||| zext5 uimm) s

/-- CSRRCI (R299): writes `old & ~zext_5(uimm)` when `uimm` is not 0 (R296). -/
def execCsrrci (rd : RegNum) (csr : CsrNum) (uimm : BitVec 5) (s : State) : Out :=
  csrInstr (.csrrci rd csr uimm) rd csr (uimm != 0) (fun old => old &&& ~~~(zext5 uimm)) s

/-- MRET (R300): trap return. In D-mode no source describes it (R305; U14). -/
def execMret (s : State) : Out := if s.mode = .M then .next (trapReturn s) else .refused .mretInDebugMode

/-- WFI (R301): `pc <- pc + 4`, and the hart may then wait; whether and how long it does is decided by the cycle.
In D-mode no source describes it (R305; U14). -/
def execWfi (s : State) : Out :=
  if s.mode = .M then .next { s.advance with waiting := true } else .refused .wfiInDebugMode

/-- DRET (R302): illegal outside D-mode; in D-mode the hart resumes at `dpc`. -/
def execDret (s : State) : Out := if s.mode = .M then .next (illegal .dret s) else .next (leaveDebug s)

end Machine
end Sys2Proof
end

