-- ==== Sys2Proof/Machine/Interrupt.lean ====
section
/-! DEFINITION. Interrupts: which are pending and enabled, which is taken and when (60 R410, R420 to R429). -/

namespace Sys2Proof
namespace Machine

/-- The codes of the interrupts the hardware can take: software, timer and the sixteen platform inputs (60 R410). -/
def interruptCodes : List Nat := [3, 7, 16, 17, 18, 19, 20, 21, 22, 23, 24, 25, 26, 27, 28, 29, 30, 31]

/-- `mip & mie` (60 R422). -/
def State.pendingEnabled (s : State) : Word := s.mip &&& s.mie

/-- The codes whose bit is set in `mip & mie` (60 R422, R428). -/
def State.readyCodes (s : State) : List Nat := interruptCodes.filter (fun c => s.pendingEnabled.getLsbD c)

/-- One of the ready interrupts; which one, when there are several, is free (60 R428; U3, log 9). -/
def State.chosenInterrupt (s : State) : Option Nat :=
  match s.readyCodes with
  | [] => none
  | [c] => some c
  | c :: d :: cs => some ((c :: d :: cs).getD (Config.pickInterrupt s.free % (cs.length + 2)) c)

/-- The interrupt taken at this boundary: `mstatus`.MIE = 1 and `mip & mie` not 0 (60 R422), and not during a single
step unless `dcsr`.stepie (60 R473). -/
def State.interruptTaken (s : State) : Option Nat :=
  if s.mstatusMIE && (!s.stepping || s.dcsrStepie) then s.chosenInterrupt else none

/-- Interrupt trap entry at the boundary (60 R422, R423): `mepc` is the pc at the boundary and `mtval` is 0. -/
def takeInterrupt (code : Nat) (s : State) : State := trapEntry true (BitVec.ofNat 31 code) 0 s.pc s

/-- The wake-up condition of WFI: `mip & mie` not 0, whatever MIE is (44 R301; 60 R424). -/
def State.wakes (s : State) : Bool := s.pendingEnabled != 0

end Machine
end Sys2Proof
end

