-- ==== Sys2Proof/Machine/Cycle.lean ====
section
/-! DEFINITION. One cycle of the hart (00_scope R14; 60 R422, R424, R429, R473, R474, R476) and the advance of the
timer after it (60 R452). -/

namespace Sys2Proof
namespace Machine

/-- A function of the next state applied after an outcome; a stop stays what it is. -/
def mapNext (f : State → State) : Out → Out
  | .next s => .next (f s)
  | .fault r => .fault r
  | .refused r => .refused r

/-! ### Following a constrained LR/SC loop (45 R335) -/

/-- An instruction a constrained loop may hold between its LR.W and its SC.W: one of the base set that is no load, no
store, no JALR, no FENCE, FENCE.I or SYSTEM instruction (45 R335). -/
def loopInstr : Instr → Bool
  | .lui _ _ | .auipc _ _ | .jal _ _ => true
  | .beq _ _ _ | .bne _ _ _ | .blt _ _ _ | .bge _ _ _ | .bltu _ _ _ | .bgeu _ _ _ => true
  | .addi _ _ _ | .slti _ _ _ | .sltiu _ _ _ | .xori _ _ _ | .ori _ _ _ | .andi _ _ _ => true
  | .slli _ _ _ | .srli _ _ _ | .srai _ _ _ => true
  | .add _ _ _ | .sub _ _ _ | .sll _ _ _ | .slt _ _ _ | .sltu _ _ _ => true
  | .xor _ _ _ | .srl _ _ _ | .sra _ _ _ | .or _ _ _ | .and _ _ _ => true
  | .jalr _ _ _ | .fence _ _ _ _ _ | .fenceI _ _ _ => false
  | .lb _ _ _ | .lh _ _ _ | .lw _ _ _ | .lbu _ _ _ | .lhu _ _ _ | .sb _ _ _ | .sh _ _ _ | .sw _ _ _ => false
  | .ecall | .ebreak | .mret | .wfi | .dret => false
  | .csrrw _ _ _ | .csrrs _ _ _ | .csrrc _ _ _ | .csrrwi _ _ _ | .csrrsi _ _ _ | .csrrci _ _ _ => false
  | .lrW _ _ _ _ | .scW _ _ _ _ _ => false
  | .amoswapW _ _ _ _ _ | .amoaddW _ _ _ _ _ | .amoxorW _ _ _ _ _ | .amoandW _ _ _ _ _ | .amoorW _ _ _ _ _ => false
  | .amominW _ _ _ _ _ | .amomaxW _ _ _ _ _ | .amominuW _ _ _ _ _ | .amomaxuW _ _ _ _ _ => false

/-- One of the six branches. -/
def isBranch : Instr → Bool
  | .beq _ _ _ | .bne _ _ _ | .blt _ _ _ | .bge _ _ _ | .bltu _ _ _ | .bgeu _ _ _ => true
  | _ => false

/-- LR.W, SC.W and MRET, whose meanings say what becomes of the loop. -/
def setsLoop : Instr → Bool
  | .lrW _ _ _ _ | .scW _ _ _ _ _ | .mret => true
  | _ => false

/-- The loop after instruction `i` at `pc` has gone to `next` (45 R335): before the SC.W only forward, over
instructions `loopInstr` admits, within 16 words of the start; after a failed SC.W only by a backward branch to the
LR.W or to an address before it that keeps the whole within 16 words. Anything else ends the loop. -/
def ScLoop.follow (l : ScLoop) (i : Instr) (pc next : Word) : Option ScLoop :=
  match l.phase with
  | .failed =>
    if isBranch i ∧ (pc - next).toNat < 64 ∧ (l.start - next).toNat ≤ (pc - next).toNat then
      some { l with start := next, phase := .retrying }
    else none
  | .trying | .retrying =>
    if loopInstr i ∧ (pc - l.start).toNat < (next - l.start).toNat ∧ (next - l.start).toNat < 64 then some l else none

/-- The state after instruction `i` has led from `s` to `t`, the constrained loop followed. A trap has left it. -/
def trackLoop (i : Instr) (s t : State) : State :=
  { t with scLoop := if setsLoop i then t.scLoop else t.scLoop.bind (fun l => l.follow i s.pc t.pc) }

/-! ### Cycles -/

/-- Steps 3 to 5 of R14: the alignment of `pc`, the fetch, the decoding and the instruction's rule. -/
def fetchDecodeExec (s : State) : Out :=
  if misalignedTarget s.pc then .next (raise .instructionAddressMisaligned s.pc s)
  else
    match fetch s s.pc with
    | none => .next (raise .instructionAccessFault s.pc s)
    | some w =>
      match decodeBytes (bytesOfWord w) with
      | .ok (i, _) => mapNext (trackLoop i s) (exec i s)
      | .error _ => .next (raise .illegalInstruction w s)

/-- After the one step a resume with `dcsr`.step = 1 allows, the hart is halted again with cause 4 (60 R473).
DESIGN CHOICE, log 26: where that step is an EBREAK with `dcsr`.ebreakm set, which itself enters D-mode with cause 1
(R472), the spec gives no order; cause 1 stands and there is no second entry. -/
def afterStep (s : State) : State :=
  if s.stepping && s.mode == .M then enterDebug 4 s.pc s else s

/-- A boundary in M-mode: a halt request first (60 R474), then a wait in WFI (44 R301), then an interrupt (60 R422),
then the instruction at `pc` (00_scope R14). -/
def cycleM (s : State) : Out :=
  if s.dm.haltreq then .next (enterDebug 3 s.pc s)
  else if s.waiting && !s.wakes && !Config.wakeUp s.free then .next s
  else
    let awake := { s with waiting := false }
    match awake.interruptTaken with
    | some code => .next (afterStep (takeInterrupt code awake))
    | none => mapNext afterStep (fetchDecodeExec awake)

/-- A cycle in D-mode: the next instruction of the program buffer while it runs, otherwise nothing (60 R475, R476). -/
def cycleD (s : State) : Out :=
  match s.dm.pbIndex with
  | none => .next s
  | some k =>
    match s.dm.progbuf[k]? with
    | none => .fault .programBufferEnd
    | some w =>
      match decodeBytes (bytesOfWord w) with
      | .ok (i, _) => exec i s
      | .error _ => .next (raise .illegalInstruction w s)

/-- What the hart does in one cycle; nothing while reset is asserted (60 R481). -/
def cycle (s : State) : Out :=
  if s.inReset then .next s
  else
    match s.mode with
    | .M => cycleM s
    | .D => cycleD s

/-- How far `mtime` advances over a cycle that begins in `s`: at least 1 (60 R452; U26, log 8), any amount in D-mode
with `dcsr`.stoptime = 1 (U10). -/
def tickAmount (s : State) : Nat :=
  if s.mode == .D && s.dcsrStoptime then Config.tickStopped s.free else Config.tick s.free + 1

/-- The timer's own advance over a cycle from `u` to `s`, and a fresh place for the free values (60 R452). -/
def tick (u s : State) : State :=
  { s with
    mtime := s.mtime + BitVec.ofNat 64 (tickAmount u)
    free := s.free + 1 }

/-- An instruction word put where the next cycle fetches it: in storage behind the instruction port in M-mode, with
no older word remembered for its cell; in the program buffer, running, in D-mode. Log 17. -/
def placeWord (w : Word) (s : State) : State :=
  match s.mode with
  | .M =>
    match fetchCell s.cfg.imap s.pc.toNat with
    | some c =>
      { s with
        mem := Memory.store s.mem .word c w
        stale := s.stale.filter (fun p => p.1 != c) }
    | none => s
  | .D =>
    let k := s.dm.pbIndex.getD 0
    { s with dm := { s.dm with progbuf := s.dm.progbuf.set k w, pbIndex := some k } }

end Machine
end Sys2Proof
end

