-- ==== Sys2Proof/Machine/Step.lean ====
section
/-! DEFINITION. One step of the machine: the inputs of the boundary (00_scope R17), one cycle of the hart (R14), the
timer's advance (60 R452). -/

namespace Sys2Proof
namespace Machine

/-- One step. -/
def step (s : State) : Host.Outcome State Fault Refusal := mapNext (tick (deliver s)) (cycle (deliver s))

/-- The instruction whose table bits are `w` stored where the next step fetches. -/
def State.withFetchWord (s : State) (nbits w : Nat) : State := placeWord (BitVec.ofNat 32 (w % 2 ^ nbits)) s

end Machine
end Sys2Proof
end

