-- ==== Sys2Proof/Safety.lean ====
section
/-! DEFINITION. The terms statements are made in: what a legal state is, what an instruction leaves unchanged, and
what a trap, an exception in D-mode and a boundary are, said without the operations that compute them. -/

namespace Sys2Proof
namespace Machine

/-! ### Legal states -/

/-- The hardwired fields of the CSRs read as 10_state R39 to R48 say, and `dcsr`.cause is 0, 1, 3, 4 or 5, never 2
(60 R471, R484). -/
structure CsrsLegal (s : State) : Prop where
  mstatus : s.mstatus &&& 0xFFFFFF77#32 = 0x00001800#32
  mie : s.mie &&& 0x0000FF77#32 = 0
  mtvec : s.mtvec &&& (if s.cfg.vectored then 0x2#32 else 0x3#32) = 0
  mepc : s.mepc &&& 0x3#32 = 0
  dpc : s.dpc &&& 0x3#32 = 0
  dcsr : s.dcsr &&& 0xFFFF703B#32 = 0x40000003#32
  cause : s.dcsr.extractLsb' 6 3 ∈ [0#3, 1#3, 3#3, 4#3, 5#3]

/-- A wait in WFI and a single step belong to M-mode, the program buffer runs in D-mode only, and a hart in reset
does none of the three (60 R473, R475, R476, R481); a constrained LR/SC loop is followed in M-mode only (45
R335). -/
structure ModesLegal (s : State) : Prop where
  waiting : s.waiting = true → s.mode = .M ∧ s.inReset = false
  stepping : s.stepping = true → s.mode = .M ∧ s.inReset = false
  loop : s.scLoop.isSome = true → s.mode = .M
  buffer : s.dm.pbIndex.isSome = true → s.mode = .D
  reset : s.inReset = true → s.mode = .M

/-- The legal states: storage in its canonical form, the CSRs and the modes as they must be. -/
structure Legal (s : State) : Prop where
  mem : Memory.wf s.mem = true
  csrs : CsrsLegal s
  modes : ModesLegal s

/-- The address of an instruction: a multiple of 4 where the jump itself reports a misaligned target (41 R243) and in
D-mode (41 R252), a multiple of 2 in any case. Premises for it: RESET_ADDR is a multiple of 4 (00_scope R8; 93 U22). -/
def PcLegal (s : State) : Prop :=
  s.cfg.resetAddr.toNat % 4 = 0 ∧ s.dpc.toNat % 4 = 0 ∧ s.mepc.toNat % 4 = 0 ∧
    s.pc.toNat % 2 = 0 ∧ (s.cfg.misaligned = .atJump ∨ s.mode = .D → s.pc.toNat % 4 = 0)

/-! ### What an instruction leaves unchanged -/

/-- On to the next instruction: `pc + 4` in M-mode; the next word of the program buffer in D-mode. -/
def GoesOn (s t : State) : Prop :=
  (s.mode = .M → t.pc.toNat = (s.pc.toNat + 4) % 2 ^ 32 ∧ t.dm = s.dm) ∧
    (s.mode = .D → t.pc = s.pc ∧ t.dm = { s.dm with pbIndex := s.dm.pbIndex.map (· + 1) })

/-- Every byte of storage reads as before. -/
def SameStorage (s t : State) : Prop := ∀ c, Memory.read t.mem c = Memory.read s.mem c

/-- The registers after `x[rd]` has taken `v` and nothing else: a write to `x[0]` is discarded. -/
def RegWritten (rd : RegNum) (v : Word) (s t : State) : Prop :=
  ∀ r, t.getReg r = if r = rd ∧ rd ≠ 0 then v else s.getReg r

/-- Every register reads as before. -/
def SameRegs (s t : State) : Prop := ∀ r, t.getReg r = s.getReg r

/-- An instruction that only computes: `x[rd]` takes `v`, the hart goes on, and every CSR, the mode, the reservation,
storage, the timer module, the lines and the rest of the Debug Module are what they were. -/
def Computes (rd : RegNum) (v : Word) (s t : State) : Prop :=
  RegWritten rd v s t ∧ GoesOn s t ∧ SameStorage s t ∧ t = { s with x := t.x, pc := t.pc, dm := t.dm }

/-- Instruction `i` answers a next state in which `x[rd]` has taken a value with property `P` and nothing else is
changed but the place of the next instruction. -/
def Yields (i : Instr) (s : State) (rd : RegNum) (P : Word → Prop) : Prop :=
  ∃ v t, exec i s = .next t ∧ P v ∧ Computes rd v s t

/-! ### Traps -/

/-- The handler address (60 R430, R432): BASE, or for an interrupt in Vectored mode BASE + 4 * code. -/
def HandlerAt (interrupt : Bool) (code : Nat) (s : State) (pc : Word) : Prop :=
  pc.toNat =
    (s.mtvec.toNat / 4 * 4 + (if interrupt ∧ s.mtvec.toNat % 4 = 1 then 4 * code else 0)) % 2 ^ 32

/-- Trap entry (60 R430) from `s` to `t`: `mepc` takes the address with bits 1:0 cleared, `mcause` the interrupt bit
and the code, `mtval` the value, MPIE the old MIE, MIE 0; the reservation is kept or lost, a constrained LR/SC loop is
left and, on its way back to the LR.W, kept for the return (log 15); all else is unchanged. -/
def Traps (interrupt : Bool) (code : Nat) (tval epc : Word) (s t : State) : Prop :=
  t.mepc.toNat = epc.toNat / 4 * 4 ∧
  t.mcause.toNat = (if interrupt then 2 ^ 31 else 0) + code ∧
  t.mtval = tval ∧
  t.mstatus.toNat = 0x1800 + (if s.mstatus.getLsbD 3 then 0x80 else 0) ∧
  HandlerAt interrupt code s t.pc ∧
  (t.reservation = s.reservation ∨ t.reservation = none) ∧
  SameRegs s t ∧ SameStorage s t ∧
  t = { s with
    mepc := t.mepc, mcause := t.mcause, mtval := t.mtval, mstatus := t.mstatus, pc := t.pc,
    reservation := t.reservation, scLoop := none, scParked := s.parkLoop t.mepc }

/-- An exception in D-mode (60 R476): the program buffer ends and `cmderr` becomes 3 unless an earlier error stands
(60 R479); all else, every CSR among it, is unchanged. -/
def EndsBuffer (s t : State) : Prop :=
  t = { s with dm := { s.dm with cmderr := if s.dm.cmderr = 0 then 3 else s.dm.cmderr, pbIndex := none } }

/-- An exception with this code and trap value raised in `s`: a trap in M-mode, the end of the program buffer in
D-mode. -/
def Raises (code : Nat) (tval : Word) (s t : State) : Prop :=
  (s.mode = .M → Traps false code tval s.pc s t) ∧ (s.mode = .D → EndsBuffer s t)

/-- Instruction `i` raises an exception with this code and trap value. -/
def RaisesOn (i : Instr) (s : State) (code : Nat) (tval : Word) : Prop :=
  ∃ t, exec i s = .next t ∧ Raises code tval s t

/-- Entry to D-mode (60 R471) from `s` to `t`: `dpc` takes the address, `dcsr` the cause and prv = 3, the reservation
is invalid, the wait and the single step are over, a constrained LR/SC loop is left and, on its way back to the LR.W,
kept for the return (log 15); `pc`, which has no meaning in D-mode, takes some multiple of 4 (41 R252; log 25); every
other CSR, the registers and storage are unchanged. -/
def Halts (cause : Nat) (next : Word) (s t : State) : Prop :=
  t.dpc.toNat = next.toNat / 4 * 4 ∧
  t.dcsr.extractLsb' 6 3 = BitVec.ofNat 3 cause ∧
  t.dcsr.extractLsb' 0 2 = 3#2 ∧
  (∀ k, k ∉ [0, 1, 6, 7, 8] → t.dcsr.getLsbD k = s.dcsr.getLsbD k) ∧
  t.mode = .D ∧ t.reservation = none ∧ t.pc.toNat % 4 = 0 ∧
  t = { s with
    pc := t.pc, dpc := t.dpc, dcsr := t.dcsr, mode := .D, reservation := none, scLoop := none,
    scParked := s.parkLoop t.dpc, waiting := false, stepping := false,
    dm := { s.dm with pbIndex := none } }

/-! ### Boundaries -/

/-- The hart is at a boundary in M-mode at which it starts an instruction: reset is not asserted, no halt is asked
for, and it does not go on waiting (00_scope R14; 60 R474; 44 R301). -/
structure Running (s : State) : Prop where
  reset : s.inReset = false
  mode : s.mode = .M
  halt : s.dm.haltreq = false
  wait : s.waiting = true → s.mip &&& s.mie ≠ 0

/-- No interrupt is taken at the boundary (60 R422; for a single step R473). -/
def NoInterrupt (s : State) : Prop :=
  s.mstatus.getLsbD 3 = false ∨ s.mip &&& s.mie = 0 ∨ (s.stepping = true ∧ s.dcsr.getLsbD 11 = false)

/-- What a word of storage reads as: its four bytes, the lowest cell lowest (20_memory R91, R93). -/
def wordAt (m : Memory) (c : Nat) : Word :=
  wordOfBytes (Memory.read m c) (Memory.read m (c + 1)) (Memory.read m (c + 2)) (Memory.read m (c + 3))

/-- An instruction fetch of `a` reads storage cell `c`, to which nothing has been stored since the last FENCE.I. -/
def FetchesCurrent (s : State) (a : Word) (c : Nat) : Prop :=
  fetchCell s.cfg.imap a.toNat = some c ∧ ∀ p ∈ s.stale, p.1 ≠ c

/-- A data access at `a` reaches storage cell `c`. -/
def ReachesStorage (s : State) (a : Word) (c : Nat) : Prop := dataAnswer s.cfg.dmap a.toNat = .memory c

/-- Nothing answers a data access at `a`, or the answer is an error (20_memory R103; 92 D22). -/
def Unmapped (s : State) (a : Word) : Prop := dataAnswer s.cfg.dmap a.toNat = .fault

/-! ### Control transfer -/

/-- `target` is `base` plus a signed offset, modulo 2^32 (00_scope R10; 10_state R25). -/
def IsSum (target base : Word) (offset : Int) : Prop :=
  (target.toNat : Int) = ((base.toNat : Int) + offset) % 2 ^ 32

/-- The transfer in `s` to `target` is carried out rather than reported: the target is a multiple of 4, or the step
that would fetch there reports it (41 R243). -/
def Lands (s : State) (target : Word) : Prop := target.toNat % 4 = 0 ∨ s.cfg.misaligned = .atTarget

/-- A jump with link in M-mode (41 R241, R242): the link, the target and nothing else, or the report of a misaligned
target with no register written. -/
def JumpGoes (i : Instr) (s : State) (rd : RegNum) (target : Word) : Prop :=
  (Lands s target →
    ∃ t, exec i s = .next t ∧ RegWritten rd (s.pc + 4) s t ∧ t.pc = target ∧ SameStorage s t ∧
      t = { s with x := t.x, pc := t.pc }) ∧
  (¬ Lands s target → RaisesOn i s 0 target)

/-- A branch in M-mode (41 R251): the target if the condition holds, else the next instruction; a misaligned target
is reported only when the branch is taken. -/
def BranchGoes (i : Instr) (s : State) (off : BitVec 13) (cond : Prop) : Prop :=
  (¬ cond → ∃ t, exec i s = .next t ∧ IsSum t.pc s.pc 4 ∧ t = { s with pc := t.pc }) ∧
  (cond → ∀ target, IsSum target s.pc off.toInt →
    (Lands s target → exec i s = .next { s with pc := target }) ∧
    (¬ Lands s target → RaisesOn i s 0 target))

/-- A control transfer from the program buffer: `x[rd]` may take a value, the place in the buffer may change, and
nothing else does. -/
def MovesInBuffer (i : Instr) (s : State) (rd : RegNum) : Prop :=
  ∃ v t, exec i s = .next t ∧ RegWritten rd v s t ∧ SameStorage s t ∧
    t = { s with x := t.x, dm := { s.dm with pbIndex := t.dm.pbIndex } } ∧
    (t.dm.pbIndex.isSome = s.dm.pbIndex.isSome)

/-! ### Stores and atomics -/

/-- `n` bytes of `v` in storage from cell `c` up, the lowest byte lowest, and every other byte as before (20_memory
R91, R98). -/
def BytesStored (c n : Nat) (v : Word) (s t : State) : Prop :=
  ∀ d, Memory.read t.mem d =
    if c ≤ d ∧ d < c + n then BitVec.ofNat 8 (v.toNat / 256 ^ (d - c)) else Memory.read s.mem d

/-- The words remembered for early fetches after `n` bytes have been stored from cell `c` on: those remembered before,
and what each word that shares a byte with them held (20_memory R118). -/
def StaleAfterStore (c n : Nat) (s t : State) : Prop :=
  ∀ d w, (d, w) ∈ t.stale ↔ (d, w) ∈ s.stale ∨ (c ≤ d + 3 ∧ d < c + n ∧ w = wordAt s.mem d)

/-- The reservation after a store of this hart at `a`: as it was, or lost if `a` is in the reserved block (45 R333). -/
def ReservationAfterStore (a : Word) (s t : State) : Prop :=
  t.reservation = s.reservation ∨ (s.reserves a = true ∧ t.reservation = none)

/-- Instruction `i` stores `n` bytes of `v` at cell `c`, address `a`, and changes nothing else but the place of the
next instruction, the words remembered for early fetches and perhaps the reservation. -/
def StoresBytes (i : Instr) (s : State) (a : Word) (c n : Nat) (v : Word) : Prop :=
  ∃ t, exec i s = .next t ∧ BytesStored c n v s t ∧ SameRegs s t ∧ GoesOn s t ∧ ReservationAfterStore a s t ∧
    StaleAfterStore c n s t ∧
    t = { s with mem := t.mem, stale := t.stale, reservation := t.reservation, pc := t.pc, dm := t.dm }

/-- Instruction `i` reads the word at cell `c`, address `a`, stores a word with property `P` there, gives `x[rd]` the
old word, and changes nothing else but what a store changes. -/
def SwapsWord (i : Instr) (s : State) (a : Word) (c : Nat) (rd : RegNum) (P : Word → Prop) : Prop :=
  ∃ w t, exec i s = .next t ∧ P w ∧ BytesStored c 4 w s t ∧ RegWritten rd (wordAt s.mem c) s t ∧ GoesOn s t ∧
    ReservationAfterStore a s t ∧ StaleAfterStore c 4 s t ∧
    t = { s with x := t.x, mem := t.mem, stale := t.stale, reservation := t.reservation, pc := t.pc, dm := t.dm }

/-- The nine AMOs, each with what it stores: from the old word and the operand, the new word (45 R324 to R332). -/
def amoForms (aq rl : Bool) (rd rs1 rs2 : RegNum) : List (Instr × (Word → Word → Word → Prop)) :=
  [(.amoswapW aq rl rd rs1 rs2, fun _ b w => w = b),
    (.amoaddW aq rl rd rs1 rs2, fun old b w => w.toNat = (old.toNat + b.toNat) % 2 ^ 32),
    (.amoxorW aq rl rd rs1 rs2, fun old b w => ∀ k < 32, w.getLsbD k = (old.getLsbD k != b.getLsbD k)),
    (.amoandW aq rl rd rs1 rs2, fun old b w => ∀ k < 32, w.getLsbD k = (old.getLsbD k && b.getLsbD k)),
    (.amoorW aq rl rd rs1 rs2, fun old b w => ∀ k < 32, w.getLsbD k = (old.getLsbD k || b.getLsbD k)),
    (.amominW aq rl rd rs1 rs2, fun old b w => w.toInt = min old.toInt b.toInt),
    (.amomaxW aq rl rd rs1 rs2, fun old b w => w.toInt = max old.toInt b.toInt),
    (.amominuW aq rl rd rs1 rs2, fun old b w => w.toNat = min old.toNat b.toNat),
    (.amomaxuW aq rl rd rs1 rs2, fun old b w => w.toNat = max old.toNat b.toNat)]

/-- Instruction `i`, an LR.W of the word at `a`, reads a word with property `P`, takes the reservation and changes
nothing else. -/
def Reserves (i : Instr) (s : State) (rd : RegNum) (a : Word) (P : Word → Prop) : Prop :=
  ∃ v t, exec i s = .next t ∧ P v ∧ Computes rd v { s with reservation := some a, scLoop := s.loopAtLr } t

/-- SC.W would store: the reservation covers the address and no spurious failure occurs (45 R322). -/
def ScStores (s : State) (a : Word) : Prop := s.reserves a = true ∧ s.spurious a = false

/-- A word store to the timer module: the three registers take these values, the hart goes on, and nothing else
changes but perhaps the reservation (60 R451). -/
def SetsTimer (i : Instr) (s : State) (a : Word) (P : State → Prop) : Prop :=
  ∃ t, exec i s = .next t ∧ P t ∧ SameRegs s t ∧ SameStorage s t ∧ GoesOn s t ∧ ReservationAfterStore a s t ∧
    t = { s with
      mtime := t.mtime, mtimecmp := t.mtimecmp, msip := t.msip, reservation := t.reservation, pc := t.pc, dm := t.dm }

/-- An AMO on the timer module: `x[rd]` takes the old word, the three registers and the old word are as `P` says, and
nothing else changes but what a store changes. -/
def SwapsTimer (i : Instr) (s : State) (a : Word) (rd : RegNum) (P : Word → State → Prop) : Prop :=
  ∃ old t, exec i s = .next t ∧ P old t ∧ RegWritten rd old s t ∧ SameStorage s t ∧ GoesOn s t ∧
    ReservationAfterStore a s t ∧
    t = { s with
      x := t.x, mtime := t.mtime, mtimecmp := t.mtimecmp, msip := t.msip, reservation := t.reservation, pc := t.pc,
      dm := t.dm }

/-- An SC.W that stores to the timer module: as a store, with 0 in `x[rd]` and no reservation left. -/
def ConditionallySetsTimer (i : Instr) (s : State) (rd : RegNum) (P : State → Prop) : Prop :=
  ∃ t, exec i s = .next t ∧ P t ∧ RegWritten rd 0 s t ∧ SameStorage s t ∧ GoesOn s t ∧
    t = { s with
      x := t.x, mtime := t.mtime, mtimecmp := t.mtimecmp, msip := t.msip, reservation := none, scLoop := none,
      pc := t.pc, dm := t.dm }

/-- A load from a device (20_memory R100; 60 R407): the device sees one read; then the load completes with a value
that has property `P` or raises Load Access Fault. -/
def ReadsDevice (i : Instr) (s : State) (rd : RegNum) (id : Nat) (a : Word) (z : AccessSize) (P : Word → Prop) :
    Prop :=
  ∃ t, exec i s = .next t ∧
    ((∃ v, P v ∧ Computes rd v (logDevice (.read id a z) s) t) ∨ Raises 5 a (logDevice (.read id a z) s) t)

/-- A store to a device (20_memory R100; 60 R409): the device sees one write of the bytes named; then the store
completes or raises Store Access Fault; nothing else changes but perhaps the reservation. -/
def WritesDevice (i : Instr) (s : State) (id : Nat) (a : Word) (z : AccessSize) (v : Word) : Prop :=
  ∃ r t, exec i s = .next t ∧ (r = s.reservation ∨ (s.reserves a = true ∧ r = none)) ∧
    let u := { logDevice (.write id a z v) s with reservation := r }
    (GoesOn u t ∧ t = { u with pc := t.pc, dm := t.dm }) ∨ Raises 7 a u t

/-- LR.W from a device: it sees one read; then the reservation is taken and `x[rd]` takes some word, or Load Access
Fault is raised. -/
def ReservesDevice (i : Instr) (s : State) (rd : RegNum) (id : Nat) (a : Word) : Prop :=
  let u := logDevice (.read id a .word) s
  ∃ t, exec i s = .next t ∧
    ((∃ v, Computes rd v { u with reservation := some a, scLoop := s.loopAtLr } t) ∨ Raises 5 a u t)

/-- SC.W that stores `b` to a device: it sees one write; then the store has succeeded, or Store Access Fault is
raised. -/
def ConditionallyWritesDevice (i : Instr) (s : State) (rd : RegNum) (id : Nat) (a b : Word) : Prop :=
  let u := logDevice (.write id a .word b) s
  ∃ t, exec i s = .next t ∧
    (Computes rd 0 { u with reservation := none, scLoop := none } t ∨
      ∃ r, (r = s.reservation ∨ r = none) ∧ Raises 7 a { u with reservation := r } t)

/-- An AMO on a device (45 R323): it sees one read, and no write if that read fails; then one write of a word that
`P` gives from the word read; then `x[rd]` takes the word read. An error on either raises Store Access Fault. -/
def SwapsDevice (i : Instr) (s : State) (rd : RegNum) (id : Nat) (a : Word) (P : Word → Word → Prop) : Prop :=
  let u := logDevice (.read id a .word) s
  ∃ t, exec i s = .next t ∧
    (Raises 7 a u t ∨
      ∃ old w r, P old w ∧ (r = s.reservation ∨ (s.reserves a = true ∧ r = none)) ∧
        (Computes rd old { logDevice (.write id a .word w) u with reservation := r } t ∨
          Raises 7 a { logDevice (.write id a .word w) u with reservation := r } t))

/-- The addresses of the five words of the timer module (60 R451). -/
def timerAddrs (cfg : Config) : List Word :=
  [cfg.timerBase + cfg.mtimecmpOff, cfg.timerBase + cfg.mtimecmpOff + 4, cfg.timerBase + cfg.mtimeOff,
    cfg.timerBase + cfg.mtimeOff + 4, cfg.timerBase + cfg.msipOff]

/-- A data access at `a` reaches one of the five words of the timer module (60 R451); the five lie at different
addresses. -/
def OnTimerWord (s : State) (a : Word) : Prop :=
  dataAnswer s.cfg.dmap a.toNat = .timer ∧ (timerAddrs s.cfg).Nodup ∧ a.toNat % 4 = 0 ∧ a ∈ timerAddrs s.cfg

/-- What the word of the timer module at `a` holds (60 R451). -/
def TimerHolds (s : State) (a v : Word) : Prop :=
  (a = s.cfg.timerBase + s.cfg.mtimecmpOff ∧ v.toNat = s.mtimecmp.toNat % 2 ^ 32) ∨
  (a = s.cfg.timerBase + s.cfg.mtimecmpOff + 4 ∧ v.toNat = s.mtimecmp.toNat / 2 ^ 32) ∨
  (a = s.cfg.timerBase + s.cfg.mtimeOff ∧ v.toNat = s.mtime.toNat % 2 ^ 32) ∨
  (a = s.cfg.timerBase + s.cfg.mtimeOff + 4 ∧ v.toNat = s.mtime.toNat / 2 ^ 32) ∨
  (a = s.cfg.timerBase + s.cfg.msipOff ∧ v.toNat = if s.msip then 1 else 0)

/-- What the timer module holds in `t` after `b` has been stored to its word at `a` (60 R451, R453, R455); a store to
`mtime` sets the word or is ignored (R457; log 13). -/
def TimerTakes (s : State) (a b : Word) (t : State) : Prop :=
  (a = s.cfg.timerBase + s.cfg.mtimecmpOff ∧
    t.mtimecmp.toNat = s.mtimecmp.toNat / 2 ^ 32 * 2 ^ 32 + b.toNat ∧ t.mtime = s.mtime ∧ t.msip = s.msip) ∨
  (a = s.cfg.timerBase + s.cfg.mtimecmpOff + 4 ∧
    t.mtimecmp.toNat = b.toNat * 2 ^ 32 + s.mtimecmp.toNat % 2 ^ 32 ∧ t.mtime = s.mtime ∧ t.msip = s.msip) ∨
  (a = s.cfg.timerBase + s.cfg.mtimeOff ∧
    (t.mtime = s.mtime ∨ t.mtime.toNat = s.mtime.toNat / 2 ^ 32 * 2 ^ 32 + b.toNat) ∧
      t.mtimecmp = s.mtimecmp ∧ t.msip = s.msip) ∨
  (a = s.cfg.timerBase + s.cfg.mtimeOff + 4 ∧
    (t.mtime = s.mtime ∨ t.mtime.toNat = b.toNat * 2 ^ 32 + s.mtime.toNat % 2 ^ 32) ∧
      t.mtimecmp = s.mtimecmp ∧ t.msip = s.msip) ∨
  (a = s.cfg.timerBase + s.cfg.msipOff ∧
    (t.msip = true ↔ b.toNat % 2 = 1) ∧ t.mtimecmp = s.mtimecmp ∧ t.mtime = s.mtime)

/-- A load from the timer module whose outcome the spec leaves open (60 R451; log 14): it completes with some value
that has property `P`, or raises Load Access Fault; nothing else changes. -/
def ReadsTimerSomehow (i : Instr) (s : State) (rd : RegNum) (a : Word) (P : Word → Prop) : Prop :=
  Yields i s rd P ∨ RaisesOn i s 5 a

/-! ### CSR instructions -/

/-- The 14 CSR numbers of Table 13 (10_state R30). -/
def csrNumbers : List CsrNum :=
  [0xF11#12, 0xF12#12, 0xF13#12, 0xF14#12, 0x300#12, 0x301#12, 0x304#12, 0x305#12, 0x341#12, 0x342#12, 0x343#12,
    0x344#12, 0x7B0#12, 0x7B1#12]

/-- Steps 1 to 3 of 44 R292 let the access through: the number is one of the 14, `dcsr` and `dpc` are accessed in
D-mode, and a CSR with `csr[11:10]` = 11 is not written. -/
def CsrAllowed (s : State) (n : CsrNum) (writes : Prop) : Prop :=
  n ∈ csrNumbers ∧ ((n = 0x7B0#12 ∨ n = 0x7B1#12) → s.mode = .D) ∧ (writes → n.toNat / 1024 ≠ 3)

/-- What each of the 14 numbers reads (10_state R30, R34 to R48): the parameters, the constant `misa`, the register of
that name, and `mip`, computed from its sources. -/
def csrTable (s : State) : List (CsrNum × Csr × Word) :=
  [(0xF11#12, .mvendorid, s.cfg.mvendorid), (0xF12#12, .marchid, s.cfg.marchid), (0xF13#12, .mimpid, s.cfg.mimpid),
    (0xF14#12, .mhartid, s.cfg.mhartid), (0x300#12, .mstatus, s.mstatus), (0x301#12, .misa, 0x40000101#32),
    (0x304#12, .mie, s.mie), (0x305#12, .mtvec, s.mtvec), (0x341#12, .mepc, s.mepc), (0x342#12, .mcause, s.mcause),
    (0x343#12, .mtval, s.mtval), (0x344#12, .mip, s.mip), (0x7B0#12, .dcsr, s.dcsr), (0x7B1#12, .dpc, s.dpc)]

/-- A CSR instruction on `n` that completes (44 R292 steps 4 to 6): `x[rd]` takes the value read, the CSR what the
CSR's field rules make of `new` of that value if the instruction writes, and nothing else changes. -/
def CsrAccesses (i : Instr) (s : State) (rd : RegNum) (n : CsrNum) (writes : Prop) (new : Word → Word) : Prop :=
  ∃ c u t, csrOfNum n = some c ∧ exec i s = .next t ∧
    (writes → u = csrWrite c (new (csrRead c s)) s) ∧ (¬ writes → u = s) ∧
    RegWritten rd (csrRead c s) u t ∧ GoesOn u t ∧ SameStorage s t ∧ t = { u with x := t.x, pc := t.pc, dm := t.dm }

end Machine
end Sys2Proof
end

