-- ==== Sys2Proof/Certificates/Slice0/Obligations.lean ====
section
/-! DEFINITION. The statements for the provers, in the order of OBLIGATIONS.json. -/

open Sys2Proof Sys2Proof.Machine

/-! ### Encoding (30_encoding) -/

/-- Decoding the word of an instruction gives the instruction back, with every operand at every value its fields
admit (30 R131 to R146, R150 to R157). -/
def Obligations.DecodeAfterEncode : Prop :=
  ∀ i : Instr, i.wellFormed = true → decode (encode i) = .ok i

/-- Each word stands for at most one instruction, and is the word of the instruction it stands for: no bit of a word
is dropped (30 R131 to R146, R150 to R157, R163). -/
def Obligations.EncodeAfterDecode : Prop :=
  ∀ (w : Word) (i : Instr), decode w = .ok i → i.wellFormed = true ∧ encode i = w

/-- The decoder accepts exactly the words that match one of the 61 rows of the opcode table (30 R158, R160). -/
def Obligations.DecoderAcceptsExactlyTheTable : Prop :=
  opcodeRows.length = 61 ∧
    ∀ w : Word, (∃ i, decode w = .ok i) ↔ ∃ r ∈ opcodeRows, r.selects w = true

/-- No word matches two rows of the opcode table (30 R158). -/
def Obligations.NoWordMatchesTwoRows : Prop :=
  ∀ w : Word, ∀ r ∈ opcodeRows, ∀ q ∈ opcodeRows, r.selects w = true → q.selects w = true → r = q

/-- Words of the spec's examples decode to the instructions they stand for (30 R177, R178; 41 R241; 44 R293; 45
R322). -/
def Obligations.ExampleWordsDecode : Prop :=
  decode 0xDEADC2B7#32 = .ok (.lui 5#5 0xDEADC#20) ∧
  decode 0xFE62AE23#32 = .ok (.sw 5#5 6#5 0xFFC#12) ∧
  decode 0x80629063#32 = .ok (.bne 5#5 6#5 0x1000#13) ∧
  decode 0x7FF7F06F#32 = .ok (.jal 0#5 0x07FFFE#21) ∧
  decode 0x40135293#32 = .ok (.srai 5#5 6#5 1#5) ∧
  decode 0x30029373#32 = .ok (.csrrw 6#5 0x300#12 5#5) ∧
  decode 0x8330000F#32 = .ok (.fence 8#4 3#4 3#4 0#5 0#5) ∧
  decode 0x1A7322AF#32 = .ok (.scW false true 5#5 6#5 7#5)

/-! ### Steps (00_scope R14) -/

/-- At a boundary where no halt, no wait and no interrupt comes first, and the four bytes at `pc` (to which nothing has
been stored since the last FENCE.I) decode to an instruction, the step is that instruction's meaning on the state the
inputs leave, followed by the bookkeeping of constrained LR/SC loops, the end of a single step and the timer's
advance. -/
def Obligations.StepRunsTheDecodedInstruction : Prop :=
  ∀ (s : State) (i : Instr) (c : Nat),
    Running (deliver s) → NoInterrupt (deliver s) → (deliver s).pc.toNat % 4 = 0 →
    FetchesCurrent (deliver s) (deliver s).pc c →
    decodeBytes
      [Memory.read (deliver s).mem c, Memory.read (deliver s).mem (c + 1), Memory.read (deliver s).mem (c + 2),
        Memory.read (deliver s).mem (c + 3)] = .ok (i, []) →
    step s =
      mapNext (fun t => tick (deliver s) (afterStep (trackLoop i { deliver s with waiting := false } t)))
        (exec i { deliver s with waiting := false })

/-- In D-mode, while the program buffer runs, the step is the meaning of the word it has reached (60 R476), followed by
the timer's advance. -/
def Obligations.StepRunsTheProgramBuffer : Prop :=
  ∀ (s : State) (k : Nat) (w : Word) (i : Instr),
    (deliver s).inReset = false → (deliver s).mode = .D → (deliver s).dm.pbIndex = some k →
    (deliver s).dm.progbuf[k]? = some w → decode w = .ok i →
    step s = mapNext (tick (deliver s)) (exec i (deliver s))

/-- A word that matches no row of the opcode table raises Illegal Instruction when execution reaches it: in M-mode trap
entry with cause code 2 and the word as trap value, from the program buffer the exception of 60 R476, and no other
effect (30 R160). -/
def Obligations.UnlistedWordTraps : Prop :=
  ∀ (s : State) (w : Word), (∀ r ∈ opcodeRows, r.selects w = false) →
    (Running (deliver s) → NoInterrupt (deliver s) → (deliver s).pc.toNat % 4 = 0 →
      fetch (deliver s) (deliver s).pc = some w →
      ∃ t, Traps false 2 w (deliver s).pc { deliver s with waiting := false } t ∧
        step s = .next (tick (deliver s) (afterStep t))) ∧
    ((deliver s).inReset = false → (deliver s).mode = .D →
      ∀ k, (deliver s).dm.pbIndex = some k → (deliver s).dm.progbuf[k]? = some w →
      ∃ t, EndsBuffer (deliver s) t ∧ step s = .next (tick (deliver s) t))

/-- What the fetch side raises (20 R96, R97; 60 R402, R403, R427): a `pc` that is not a multiple of 4 raises code 0
and is not fetched from; at an address where the instruction port answers with an error the step raises code 1. -/
def Obligations.FetchSideTraps : Prop :=
  ∀ s : State, Running (deliver s) → NoInterrupt (deliver s) →
    ((deliver s).pc.toNat % 4 ≠ 0 →
      ∃ t, Traps false 0 (deliver s).pc (deliver s).pc { deliver s with waiting := false } t ∧
        step s = .next (tick (deliver s) (afterStep t))) ∧
    ((deliver s).pc.toNat % 4 = 0 → fetchCell (deliver s).cfg.imap (deliver s).pc.toNat = none →
      ∃ t, Traps false 1 (deliver s).pc (deliver s).pc { deliver s with waiting := false } t ∧
        step s = .next (tick (deliver s) (afterStep t)))

/-! ### Integer instructions (40_integer_computational) -/

/-- The ten register-register instructions (40 R212 to R221, R223): the result as numbers or bits, in both modes, and
nothing else changed. -/
def Obligations.RegisterRegisterResults : Prop :=
  ∀ (s : State) (rd rs1 rs2 : RegNum),
    let a := s.getReg rs1
    let b := s.getReg rs2
    Yields (.add rd rs1 rs2) s rd (fun v => v.toNat = (a.toNat + b.toNat) % 2 ^ 32) ∧
    Yields (.sub rd rs1 rs2) s rd (fun v => (v.toNat : Int) = ((a.toNat : Int) - b.toNat) % 2 ^ 32) ∧
    Yields (.sll rd rs1 rs2) s rd (fun v => v.toNat = a.toNat * 2 ^ (b.toNat % 32) % 2 ^ 32) ∧
    Yields (.slt rd rs1 rs2) s rd (fun v => v.toNat = if a.toInt < b.toInt then 1 else 0) ∧
    Yields (.sltu rd rs1 rs2) s rd (fun v => v.toNat = if a.toNat < b.toNat then 1 else 0) ∧
    Yields (.xor rd rs1 rs2) s rd (fun v => ∀ k < 32, v.getLsbD k = (a.getLsbD k != b.getLsbD k)) ∧
    Yields (.srl rd rs1 rs2) s rd (fun v => v.toNat = a.toNat / 2 ^ (b.toNat % 32)) ∧
    Yields (.sra rd rs1 rs2) s rd (fun v => v.toInt = Int.fdiv a.toInt (2 ^ (b.toNat % 32))) ∧
    Yields (.or rd rs1 rs2) s rd (fun v => ∀ k < 32, v.getLsbD k = (a.getLsbD k || b.getLsbD k)) ∧
    Yields (.and rd rs1 rs2) s rd (fun v => ∀ k < 32, v.getLsbD k = (a.getLsbD k && b.getLsbD k))

/-- The nine register-immediate instructions (40 R203 to R211, R223; 30 R140, R145): the immediate is sign-extended
from its bit 11, for SLTIU and the logical instructions too. -/
def Obligations.RegisterImmediateResults : Prop :=
  ∀ (s : State) (rd rs1 : RegNum) (imm : BitVec 12) (shamt : BitVec 5),
    let a := s.getReg rs1
    Yields (.addi rd rs1 imm) s rd (fun v => (v.toNat : Int) = ((a.toNat : Int) + imm.toInt) % 2 ^ 32) ∧
    Yields (.slti rd rs1 imm) s rd (fun v => v.toNat = if a.toInt < imm.toInt then 1 else 0) ∧
    Yields (.sltiu rd rs1 imm) s rd (fun v => v.toNat = if (a.toNat : Int) < imm.toInt % 2 ^ 32 then 1 else 0) ∧
    Yields (.xori rd rs1 imm) s rd (fun v => ∀ k < 32, v.getLsbD k = (a.getLsbD k != imm.getLsbD (min k 11))) ∧
    Yields (.ori rd rs1 imm) s rd (fun v => ∀ k < 32, v.getLsbD k = (a.getLsbD k || imm.getLsbD (min k 11))) ∧
    Yields (.andi rd rs1 imm) s rd (fun v => ∀ k < 32, v.getLsbD k = (a.getLsbD k && imm.getLsbD (min k 11))) ∧
    Yields (.slli rd rs1 shamt) s rd (fun v => v.toNat = a.toNat * 2 ^ shamt.toNat % 2 ^ 32) ∧
    Yields (.srli rd rs1 shamt) s rd (fun v => v.toNat = a.toNat / 2 ^ shamt.toNat) ∧
    Yields (.srai rd rs1 shamt) s rd (fun v => v.toInt = Int.fdiv a.toInt (2 ^ shamt.toNat))

/-- LUI in both modes and AUIPC in M-mode (40 R201, R202; 30 R143). -/
def Obligations.UpperImmediateResults : Prop :=
  ∀ (s : State) (rd : RegNum) (imm : BitVec 20),
    Yields (.lui rd imm) s rd (fun v => v.toNat = imm.toNat * 4096) ∧
    (s.mode = .M → Yields (.auipc rd imm) s rd (fun v => v.toNat = (s.pc.toNat + imm.toNat * 4096) % 2 ^ 32))

/-! ### Control transfer (41_control_transfer) -/

/-- JAL and JALR in M-mode (41 R241, R242, R243): link and target, or a report that writes no register. -/
def Obligations.JumpsLinkAndGo : Prop :=
  ∀ (s : State) (rd rs1 : RegNum) (off : BitVec 21) (imm : BitVec 12) (sum target : Word), s.mode = .M →
    (IsSum target s.pc off.toInt → JumpGoes (.jal rd off) s rd target) ∧
    (IsSum sum (s.getReg rs1) imm.toInt → target.toNat = sum.toNat / 2 * 2 →
      JumpGoes (.jalr rd rs1 imm) s rd target)

/-- The six branches in M-mode (41 R243 to R251). -/
def Obligations.BranchesCompareAndGo : Prop :=
  ∀ (s : State) (rs1 rs2 : RegNum) (off : BitVec 13), s.mode = .M →
    let a := s.getReg rs1
    let b := s.getReg rs2
    BranchGoes (.beq rs1 rs2 off) s off (a.toNat = b.toNat) ∧
    BranchGoes (.bne rs1 rs2 off) s off (a.toNat ≠ b.toNat) ∧
    BranchGoes (.blt rs1 rs2 off) s off (a.toInt < b.toInt) ∧
    BranchGoes (.bge rs1 rs2 off) s off (b.toInt ≤ a.toInt) ∧
    BranchGoes (.bltu rs1 rs2 off) s off (a.toNat < b.toNat) ∧
    BranchGoes (.bgeu rs1 rs2 off) s off (b.toNat ≤ a.toNat)

/-- The model's choice of log 16 for results 60 R476 leaves unspecified: from the program buffer AUIPC gives `x[rd]`
some value; JAL, JALR and the branches may write `x[rd]` (branches: no register) and go on at some place of the
buffer. -/
def Obligations.ProgramBufferPcForms : Prop :=
  ∀ (s : State) (rd rs1 rs2 : RegNum) (upper : BitVec 20) (jump : BitVec 21) (imm : BitVec 12) (off : BitVec 13),
    s.mode = .D →
    Yields (.auipc rd upper) s rd (fun _ => True) ∧
    MovesInBuffer (.jal rd jump) s rd ∧ MovesInBuffer (.jalr rd rs1 imm) s rd ∧
    (∀ i ∈ [Instr.beq rs1 rs2 off, .bne rs1 rs2 off, .blt rs1 rs2 off, .bge rs1 rs2 off, .bltu rs1 rs2 off,
      .bgeu rs1 rs2 off], MovesInBuffer i s 0)

/-! ### Loads and stores (42_load_store, 20_memory) -/

/-- The effective address of the loads and stores is base plus sign-extended displacement modulo 2^32 (42 R260). -/
def Obligations.EffectiveAddressIsBasePlusDisplacement : Prop :=
  ∀ (s : State) (rs1 : RegNum) (imm : BitVec 12),
    IsSum (s.effectiveAddress rs1 imm) (s.getReg rs1) imm.toInt ∧
    (rs1 = 0 → IsSum (s.effectiveAddress rs1 imm) 0 imm.toInt)

/-- The five loads at an aligned address answered by storage (42 R261 to R265, R269; 20 R91): the value, and nothing
else changed. -/
def Obligations.LoadsFromStorage : Prop :=
  ∀ (s : State) (rd rs1 : RegNum) (imm : BitVec 12) (c : Nat),
    let ea := s.effectiveAddress rs1 imm
    let byte := fun k => Memory.read s.mem (c + k)
    ReachesStorage s ea c →
    Yields (.lb rd rs1 imm) s rd (fun v => v.toInt = (byte 0).toInt) ∧
    Yields (.lbu rd rs1 imm) s rd (fun v => v.toNat = (byte 0).toNat) ∧
    (ea.toNat % 2 = 0 →
      Yields (.lh rd rs1 imm) s rd (fun v => v.toInt = (byte 1).toInt * 256 + (byte 0).toNat) ∧
      Yields (.lhu rd rs1 imm) s rd (fun v => v.toNat = (byte 1).toNat * 256 + (byte 0).toNat)) ∧
    (ea.toNat % 4 = 0 →
      Yields (.lw rd rs1 imm) s rd (fun v =>
        v.toNat = (byte 3).toNat * 2 ^ 24 + (byte 2).toNat * 2 ^ 16 + (byte 1).toNat * 2 ^ 8 + (byte 0).toNat))

/-- The three stores at an aligned address answered by storage (42 R266 to R269; 20 R91, R98): the bytes stored, and
every other byte, register and CSR unchanged. -/
def Obligations.StoresToStorage : Prop :=
  ∀ (s : State) (rs1 rs2 : RegNum) (imm : BitVec 12) (c : Nat),
    let ea := s.effectiveAddress rs1 imm
    ReachesStorage s ea c →
    StoresBytes (.sb rs1 rs2 imm) s ea c 1 (s.getReg rs2) ∧
    (ea.toNat % 2 = 0 → StoresBytes (.sh rs1 rs2 imm) s ea c 2 (s.getReg rs2)) ∧
    (ea.toNat % 4 = 0 → StoresBytes (.sw rs1 rs2 imm) s ea c 4 (s.getReg rs2))

/-- A misaligned data access raises Load or Store Address Misaligned with the address as trap value and changes
nothing else, whatever answers there (20 R94; 60 R406, R408; 45 R321 to R323). -/
def Obligations.MisalignedAccessesTrap : Prop :=
  ∀ (s : State) (rd rs1 rs2 : RegNum) (imm : BitVec 12) (aq rl : Bool),
    let ea := s.effectiveAddress rs1 imm
    let a := s.getReg rs1
    (ea.toNat % 2 ≠ 0 →
      RaisesOn (.lh rd rs1 imm) s 4 ea ∧ RaisesOn (.lhu rd rs1 imm) s 4 ea ∧ RaisesOn (.sh rs1 rs2 imm) s 6 ea) ∧
    (ea.toNat % 4 ≠ 0 → RaisesOn (.lw rd rs1 imm) s 4 ea ∧ RaisesOn (.sw rs1 rs2 imm) s 6 ea) ∧
    (a.toNat % 4 ≠ 0 →
      RaisesOn (.lrW aq rl rd rs1) s 4 a ∧
      ∀ i ∈ [Instr.scW aq rl rd rs1 rs2, .amoswapW aq rl rd rs1 rs2, .amoaddW aq rl rd rs1 rs2,
        .amoxorW aq rl rd rs1 rs2, .amoandW aq rl rd rs1 rs2, .amoorW aq rl rd rs1 rs2, .amominW aq rl rd rs1 rs2,
        .amomaxW aq rl rd rs1 rs2, .amominuW aq rl rd rs1 rs2, .amomaxuW aq rl rd rs1 rs2],
        RaisesOn i s 6 a)

/-- An aligned data access that nothing answers raises Load or Store Access Fault with the address as trap value and
changes nothing else (20 R95, R103; 60 R407, R409; 45 R321, R323). -/
def Obligations.UnmappedAccessesTrap : Prop :=
  ∀ (s : State) (rd rs1 rs2 : RegNum) (imm : BitVec 12) (aq rl : Bool),
    let ea := s.effectiveAddress rs1 imm
    let a := s.getReg rs1
    (Unmapped s ea →
      RaisesOn (.lb rd rs1 imm) s 5 ea ∧ RaisesOn (.lbu rd rs1 imm) s 5 ea ∧ RaisesOn (.sb rs1 rs2 imm) s 7 ea ∧
      (ea.toNat % 2 = 0 →
        RaisesOn (.lh rd rs1 imm) s 5 ea ∧ RaisesOn (.lhu rd rs1 imm) s 5 ea ∧ RaisesOn (.sh rs1 rs2 imm) s 7 ea) ∧
      (ea.toNat % 4 = 0 → RaisesOn (.lw rd rs1 imm) s 5 ea ∧ RaisesOn (.sw rs1 rs2 imm) s 7 ea)) ∧
    (Unmapped s a → a.toNat % 4 = 0 →
      RaisesOn (.lrW aq rl rd rs1) s 5 a ∧
      ∀ i ∈ [Instr.amoswapW aq rl rd rs1 rs2, .amoaddW aq rl rd rs1 rs2, .amoxorW aq rl rd rs1 rs2,
        .amoandW aq rl rd rs1 rs2, .amoorW aq rl rd rs1 rs2, .amominW aq rl rd rs1 rs2, .amomaxW aq rl rd rs1 rs2,
        .amominuW aq rl rd rs1 rs2, .amomaxuW aq rl rd rs1 rs2],
        RaisesOn i s 7 a)

/-- A load, store or atomic that a device answers is one access seen by the device, for an AMO one read and then one
write, and then completes or raises the access fault (20 R95, R100; 45 R321 to R323; 60 R407, R409). Which of the two,
and the value read, are free (log 7); a byte or halfword is extended as 42 R261 to R265 say. -/
def Obligations.DeviceAccessesAreSeenOnce : Prop :=
  ∀ (s : State) (rd rs1 rs2 : RegNum) (imm : BitVec 12) (aq rl : Bool) (id : Nat) (low1 low2 : Word),
    let ea := s.effectiveAddress rs1 imm
    let a := s.getReg rs1
    let b := s.getReg rs2
    low1.toNat = b.toNat % 2 ^ 8 → low2.toNat = b.toNat % 2 ^ 16 →
    (dataAnswer s.cfg.dmap ea.toNat = .device id →
      ReadsDevice (.lb rd rs1 imm) s rd id ea .byte (fun v => -128 ≤ v.toInt ∧ v.toInt < 128) ∧
      ReadsDevice (.lbu rd rs1 imm) s rd id ea .byte (fun v => v.toNat < 2 ^ 8) ∧
      WritesDevice (.sb rs1 rs2 imm) s id ea .byte low1 ∧
      (ea.toNat % 2 = 0 →
        ReadsDevice (.lh rd rs1 imm) s rd id ea .half (fun v => -32768 ≤ v.toInt ∧ v.toInt < 32768) ∧
        ReadsDevice (.lhu rd rs1 imm) s rd id ea .half (fun v => v.toNat < 2 ^ 16) ∧
        WritesDevice (.sh rs1 rs2 imm) s id ea .half low2) ∧
      (ea.toNat % 4 = 0 →
        ReadsDevice (.lw rd rs1 imm) s rd id ea .word (fun _ => True) ∧
        WritesDevice (.sw rs1 rs2 imm) s id ea .word b)) ∧
    (dataAnswer s.cfg.dmap a.toNat = .device id → a.toNat % 4 = 0 →
      ReservesDevice (.lrW aq rl rd rs1) s rd id a ∧
      (ScStores s a → ConditionallyWritesDevice (.scW aq rl rd rs1 rs2) s rd id a b) ∧
      ∀ f ∈ amoForms aq rl rd rs1 rs2, SwapsDevice f.1 s rd id a (fun old w => f.2 old b w))

/-- LW and LR.W of each of the five words of the timer module (60 R451, R453); and the model's choice of log 14 for the
accesses R451 leaves unspecified: a byte or halfword load, and a word load of another address of the module, give some
value of their width or raise Load Access Fault, and change nothing else. -/
def Obligations.TimerWordLoads : Prop :=
  ∀ (s : State) (rd rs1 : RegNum) (imm : BitVec 12) (aq rl : Bool),
    let ea := s.effectiveAddress rs1 imm
    let a := s.getReg rs1
    (OnTimerWord s ea → Yields (.lw rd rs1 imm) s rd (TimerHolds s ea)) ∧
    (OnTimerWord s a → Reserves (.lrW aq rl rd rs1) s rd a (TimerHolds s a)) ∧
    (dataAnswer s.cfg.dmap ea.toNat = .timer →
      ReadsTimerSomehow (.lb rd rs1 imm) s rd ea (fun v => -128 ≤ v.toInt ∧ v.toInt < 128) ∧
      ReadsTimerSomehow (.lbu rd rs1 imm) s rd ea (fun v => v.toNat < 2 ^ 8) ∧
      (ea.toNat % 2 = 0 →
        ReadsTimerSomehow (.lh rd rs1 imm) s rd ea (fun v => -32768 ≤ v.toInt ∧ v.toInt < 32768) ∧
        ReadsTimerSomehow (.lhu rd rs1 imm) s rd ea (fun v => v.toNat < 2 ^ 16)) ∧
      (ea.toNat % 4 = 0 → ea ∉ timerAddrs s.cfg → ReadsTimerSomehow (.lw rd rs1 imm) s rd ea (fun _ => True))) ∧
    (dataAnswer s.cfg.dmap a.toNat = .timer → a.toNat % 4 = 0 → a ∉ timerAddrs s.cfg →
      Reserves (.lrW aq rl rd rs1) s rd a (fun _ => True) ∨ RaisesOn (.lrW aq rl rd rs1) s 5 a)

/-- SW, SC.W and the AMOs on each of the five words of the timer module (60 R451, R453, R455, R457): a store to `mtime`
either sets the word or is ignored (log 13); and the model's choice of log 14 for the accesses R451 leaves unspecified:
a byte or halfword store, and a word access at another address of the module, leave the module with some contents or
raise Store Access Fault, and change nothing else. -/
def Obligations.TimerWordStores : Prop :=
  ∀ (s : State) (rd rs1 rs2 : RegNum) (imm : BitVec 12) (aq rl : Bool),
    let ea := s.effectiveAddress rs1 imm
    let a := s.getReg rs1
    let b := s.getReg rs2
    let sc := Instr.scW aq rl rd rs1 rs2
    (OnTimerWord s ea → SetsTimer (.sw rs1 rs2 imm) s ea (TimerTakes s ea b)) ∧
    (OnTimerWord s a →
      (ScStores s a → ConditionallySetsTimer sc s rd (TimerTakes s a b)) ∧
      ∀ f ∈ amoForms aq rl rd rs1 rs2,
        SwapsTimer f.1 s a rd (fun old t => TimerHolds s a old ∧ ∃ w, f.2 old b w ∧ TimerTakes s a w t)) ∧
    (dataAnswer s.cfg.dmap ea.toNat = .timer →
      (SetsTimer (.sb rs1 rs2 imm) s ea (fun _ => True) ∨ RaisesOn (.sb rs1 rs2 imm) s 7 ea) ∧
      (ea.toNat % 2 = 0 →
        SetsTimer (.sh rs1 rs2 imm) s ea (fun _ => True) ∨ RaisesOn (.sh rs1 rs2 imm) s 7 ea) ∧
      (ea.toNat % 4 = 0 → ea ∉ timerAddrs s.cfg →
        SetsTimer (.sw rs1 rs2 imm) s ea (fun _ => True) ∨ RaisesOn (.sw rs1 rs2 imm) s 7 ea)) ∧
    (dataAnswer s.cfg.dmap a.toNat = .timer → a.toNat % 4 = 0 → a ∉ timerAddrs s.cfg →
      (ScStores s a → ConditionallySetsTimer sc s rd (fun _ => True) ∨ RaisesOn sc s 7 a) ∧
      ∀ f ∈ amoForms aq rl rd rs1 rs2, SwapsTimer f.1 s a rd (fun _ _ => True) ∨ RaisesOn f.1 s 7 a)

/-- Mixed-width access (20 R92): a word stored with SW reads back with LBU and LHU in the parts R91 says, and four SB
read back with LW as the concatenation of R91. -/
def Obligations.MixedWidthReadback : Prop :=
  (∀ (s t : State) (c : Nat) (rs1 rs2 : RegNum) (imm : BitVec 12),
    let a := s.effectiveAddress rs1 imm
    a.toNat % 4 = 0 → (∀ k < 4, ReachesStorage s (a + BitVec.ofNat 32 k) (c + k)) →
    exec (.sw rs1 rs2 imm) s = .next t →
    (∀ (rd rb : RegNum) (off : BitVec 12) (k : Nat), k < 4 → t.effectiveAddress rb off = a + BitVec.ofNat 32 k →
      ∃ u, exec (.lbu rd rb off) t = .next u ∧
        (rd ≠ 0 → (u.getReg rd).toNat = (s.getReg rs2).toNat / 2 ^ (8 * k) % 2 ^ 8)) ∧
    (∀ (rd rb : RegNum) (off : BitVec 12), t.effectiveAddress rb off = a + 2 →
      ∃ u, exec (.lhu rd rb off) t = .next u ∧ (rd ≠ 0 → (u.getReg rd).toNat = (s.getReg rs2).toNat / 2 ^ 16))) ∧
  (∀ (s0 s1 s2 s3 s4 : State) (a : Word) (c : Nat) (p0 p1 p2 p3 q0 q1 q2 q3 rb rd : RegNum)
      (o0 o1 o2 o3 off : BitVec 12),
    a.toNat % 4 = 0 → (∀ k < 4, ReachesStorage s0 (a + BitVec.ofNat 32 k) (c + k)) →
    s0.effectiveAddress p0 o0 = a → exec (.sb p0 q0 o0) s0 = .next s1 →
    s1.effectiveAddress p1 o1 = a + 1 → exec (.sb p1 q1 o1) s1 = .next s2 →
    s2.effectiveAddress p2 o2 = a + 2 → exec (.sb p2 q2 o2) s2 = .next s3 →
    s3.effectiveAddress p3 o3 = a + 3 → exec (.sb p3 q3 o3) s3 = .next s4 →
    s4.effectiveAddress rb off = a →
    ∃ u, exec (.lw rd rb off) s4 = .next u ∧
      (rd ≠ 0 → (u.getReg rd).toNat =
        (s0.getReg q3).toNat % 2 ^ 8 * 2 ^ 24 + (s0.getReg q2).toNat % 2 ^ 8 * 2 ^ 16 +
          (s0.getReg q1).toNat % 2 ^ 8 * 2 ^ 8 + (s0.getReg q0).toNat % 2 ^ 8))

/-! ### Fences and fetches (43_fence, 20_memory section 8) -/

/-- FENCE only goes on, whatever its fields hold (43 R280; 30 R163). -/
def Obligations.FenceOnlyGoesOn : Prop :=
  ∀ (s : State) (fm pred succ : BitVec 4) (rs1 rd : RegNum),
    ∃ t, exec (.fence fm pred succ rs1 rd) s = .next t ∧ GoesOn s t ∧ SameRegs s t ∧ SameStorage s t ∧
      t = { s with pc := t.pc, dm := t.dm }

/-- FENCE.I (43 R281): where HAS_ZIFENCEI is true it drops every word fetched early, so that each fetch after it gives
what its cell holds, and changes nothing else; where it is false it is an illegal instruction. -/
def Obligations.FenceIDropsEarlyWords : Prop :=
  ∀ (s : State) (imm : BitVec 12) (rs1 rd : RegNum),
    (s.cfg.hasZifencei = true →
      ∃ t, exec (.fenceI imm rs1 rd) s = .next t ∧ GoesOn s t ∧ SameRegs s t ∧ SameStorage s t ∧
        t = { s with pc := t.pc, dm := t.dm, stale := [] } ∧
        ∀ a c, fetchCell s.cfg.imap a.toNat = some c → fetch t a = some (wordAt s.mem c)) ∧
    (s.cfg.hasZifencei = false → RaisesOn (.fenceI imm rs1 rd) s 2 (encode (.fenceI imm rs1 rd)))

/-- A fetch gives what its cell holds, or a word the cell is remembered to have held since the last FENCE.I, and
fails exactly where the instruction port answers with an error (20 R97, R118). -/
def Obligations.FetchGivesOldOrNewWord : Prop :=
  ∀ (s : State) (a : Word),
    (fetch s a = none ↔ fetchCell s.cfg.imap a.toNat = none) ∧
    ∀ c w, fetchCell s.cfg.imap a.toNat = some c → fetch s a = some w → w = wordAt s.mem c ∨ (c, w) ∈ s.stale

/-- Self-modifying code (43 R282; 20 R118): after a word store into storage the instruction port also reads, and until
FENCE.I, a fetch of any word gives what it held before or what it holds now, wherever the maps put the cells; after
FENCE.I it gives what the word holds now, which for the word stored is the value stored. -/
def Obligations.StoredCodeIsSeenAfterFenceI : Prop :=
  ∀ (s t : State) (rs1 rs2 : RegNum) (imm : BitVec 12) (a : Word) (c d : Nat),
    let ea := s.effectiveAddress rs1 imm
    ea.toNat % 4 = 0 → ReachesStorage s ea c → fetchCell s.cfg.imap a.toNat = some d →
    exec (.sw rs1 rs2 imm) s = .next t →
    (d = c → wordAt t.mem d = s.getReg rs2) ∧
    (s.stale = [] → fetch t a = some (wordAt t.mem d) ∨ fetch t a = some (wordAt s.mem d)) ∧
    (s.cfg.hasZifencei = true →
      ∃ u, exec (.fenceI 0 0 0) t = .next u ∧ fetch u a = some (wordAt t.mem d))

/-! ### System instructions (44_system_csr) -/

/-- ECALL (44 R290; 60 R415): in M-mode it traps with code 11 and trap value 0; in D-mode, where no source describes
it (44 R305), the model refuses it by name. -/
def Obligations.EcallTraps : Prop :=
  ∀ s : State,
    (s.mode = .M → ∃ t, exec .ecall s = .next t ∧ Traps false 11 0 s.pc s t) ∧
    (s.mode = .D → exec .ecall s = .refused .ecallInDebugMode)

/-- EBREAK (44 R291; 60 R405, R431, R472, R476): a halt with cause 1 at its own address when `dcsr`.ebreakm is set;
else a Breakpoint whose trap value is its address or 0; in D-mode the end of the program buffer. -/
def Obligations.EbreakHaltsTrapsOrEndsTheBuffer : Prop :=
  ∀ s : State,
    (s.mode = .M → s.dcsr.getLsbD 15 = true → ∃ t, exec .ebreak s = .next t ∧ Halts 1 s.pc s t) ∧
    (s.mode = .M → s.dcsr.getLsbD 15 = false →
      ∃ v t, exec .ebreak s = .next t ∧ (v = s.pc ∨ v = 0) ∧ Traps false 3 v s.pc s t) ∧
    (s.mode = .D → exec .ebreak s = .next { s with dm := { s.dm with pbIndex := none } })

/-- Trap return (60 R440; 44 R300) in M-mode: the pc from `mepc`, MIE from MPIE, MPIE 1, the reservation kept or lost,
nothing else changed but the model's own record of constrained LR/SC loops (log 15). -/
def Obligations.MretReturns : Prop :=
  ∀ s : State, s.mode = .M →
    ∃ t, exec .mret s = .next t ∧ t.pc = s.mepc ∧ t.mode = .M ∧
      t.mstatus.toNat = 0x1880 + (if s.mstatus.getLsbD 7 then 8 else 0) ∧
      (t.reservation = s.reservation ∨ t.reservation = none) ∧ SameRegs s t ∧ SameStorage s t ∧
      t = { s with
        pc := t.pc, mstatus := t.mstatus, reservation := t.reservation, scLoop := s.parkedLoop s.mepc,
        scParked := s.parkedRest s.mepc }

/-- MRET undoes a trap (60 R430, R440): right after any trap entry it returns to the trapped address with MIE as it was
and MPIE 1, and leaves `mcause`, `mtval`, `mepc`, the registers and storage alone. A constrained LR/SC loop that the
trap interrupted on its way back to the LR.W goes on with its failures counted (45 R335; log 15). -/
def Obligations.MretUndoesTrapEntry : Prop :=
  ∀ (s t : State) (interrupt : Bool) (code : Nat) (v e : Word),
    s.mode = .M → e.toNat % 4 = 0 → Traps interrupt code v e s t →
    ∃ u, exec .mret t = .next u ∧ u.pc = e ∧ u.mstatus.getLsbD 3 = s.mstatus.getLsbD 3 ∧
      u.mstatus.getLsbD 7 = true ∧ u.mepc = e ∧ u.mcause = t.mcause ∧ u.mtval = v ∧
      SameRegs s u ∧ SameStorage s u ∧
      (∀ l, s.scLoop = some l → l.phase ≠ .trying → u.scLoop = some l ∧ u.scParked = s.scParked)

/-- WFI (44 R301; 60 R424, R465): in M-mode it goes on and the hart may then wait; a waiting hart with no interrupt
pending and enabled and no halt request either stays as it is for a step, apart from the timer, or goes on as if it
had not waited; with one pending and enabled it goes on; in D-mode, where no source describes WFI (44 R305), the model
refuses it by name. -/
def Obligations.WfiMayWait : Prop :=
  (∀ s : State, s.mode = .M →
    ∃ t, exec .wfi s = .next t ∧ IsSum t.pc s.pc 4 ∧ t.waiting = true ∧ SameRegs s t ∧ SameStorage s t ∧
      t = { s with pc := t.pc, waiting := true }) ∧
  (∀ s : State, s.mode = .D → exec .wfi s = .refused .wfiInDebugMode) ∧
  (∀ s : State, s.inbox = [] → s.inReset = false → s.mode = .M → s.dm.haltreq = false → s.waiting = true →
    (s.mip &&& s.mie = 0 → step s = .next (tick s s) ∨ step s = step { s with waiting := false }) ∧
    (s.mip &&& s.mie ≠ 0 → step s = step { s with waiting := false }))

/-- DRET and the debugger's resume request (44 R302; 60 R477): in D-mode the hart resumes at `dpc` in M-mode, owing one
step if `dcsr`.step is set, with nothing else changed but the model's own record of constrained LR/SC loops (log 15);
in M-mode DRET is an illegal instruction. -/
def Obligations.DretAndResumeLeaveDebugMode : Prop :=
  ∀ s : State,
    (s.mode = .D →
      exec .dret s = .next { s with
        pc := s.dpc, mode := .M, stepping := s.dcsr.getLsbD 2, scLoop := s.parkedLoop s.dpc,
        scParked := s.parkedRest s.dpc, dm := { s.dm with pbIndex := none } }) ∧
    (s.mode = .M → RaisesOn .dret s 2 0x7B200073#32) ∧
    (s.mode = .D → s.inReset = false → s.dm.hartsel = 0 → s.dm.pbIndex = none →
      applyInput s .resumereq =
        { s with
          pc := s.dpc, mode := .M, stepping := s.dcsr.getLsbD 2, scLoop := s.parkedLoop s.dpc,
          scParked := s.parkedRest s.dpc })

/-- CSRRW, CSRRS and CSRRC that pass the checks of 44 R292 (44 R292 to R296): the value read, the value written, and
whether one is written. -/
def Obligations.CsrRegisterForms : Prop :=
  ∀ (s : State) (rd rs1 : RegNum) (n : CsrNum),
    let a := s.getReg rs1
    (CsrAllowed s n True → CsrAccesses (.csrrw rd n rs1) s rd n True (fun _ => a)) ∧
    (CsrAllowed s n (rs1 ≠ 0) →
      CsrAccesses (.csrrs rd n rs1) s rd n (rs1 ≠ 0) (fun old => BitVec.ofFnLE (fun k => old[k] || a[k])) ∧
      CsrAccesses (.csrrc rd n rs1) s rd n (rs1 ≠ 0) (fun old => BitVec.ofFnLE (fun k => old[k] && !a[k])))

/-- CSRRWI, CSRRSI and CSRRCI that pass the checks of 44 R292 (44 R292, R296 to R299; 30 R146). -/
def Obligations.CsrImmediateForms : Prop :=
  ∀ (s : State) (rd : RegNum) (uimm : BitVec 5) (n : CsrNum),
    let a := BitVec.ofNat 32 uimm.toNat
    (CsrAllowed s n True → CsrAccesses (.csrrwi rd n uimm) s rd n True (fun _ => a)) ∧
    (CsrAllowed s n (uimm ≠ 0) →
      CsrAccesses (.csrrsi rd n uimm) s rd n (uimm ≠ 0) (fun old => BitVec.ofFnLE (fun k => old[k] || a[k])) ∧
      CsrAccesses (.csrrci rd n uimm) s rd n (uimm ≠ 0) (fun old => BitVec.ofFnLE (fun k => old[k] && !a[k])))

/-- A CSR instruction that fails a check of 44 R292 (steps 1 to 3; 10 R31, R32) raises Illegal Instruction with its own
word as trap value, and neither the CSR nor `rd` is written. -/
def Obligations.CsrIllegalAccesses : Prop :=
  ∀ (s : State) (rd rs1 : RegNum) (uimm : BitVec 5) (n : CsrNum),
    (¬ CsrAllowed s n True →
      RaisesOn (.csrrw rd n rs1) s 2 (encode (.csrrw rd n rs1)) ∧
      RaisesOn (.csrrwi rd n uimm) s 2 (encode (.csrrwi rd n uimm))) ∧
    (¬ CsrAllowed s n (rs1 ≠ 0) →
      RaisesOn (.csrrs rd n rs1) s 2 (encode (.csrrs rd n rs1)) ∧
      RaisesOn (.csrrc rd n rs1) s 2 (encode (.csrrc rd n rs1))) ∧
    (¬ CsrAllowed s n (uimm ≠ 0) →
      RaisesOn (.csrrsi rd n uimm) s 2 (encode (.csrrsi rd n uimm)) ∧
      RaisesOn (.csrrci rd n uimm) s 2 (encode (.csrrci rd n uimm)))

/-- The 14 CSRs (10 R30, R34 to R48): which register each number names and what it reads, and that no other number
names one; what a write of `v` leaves in each (44 R304), and that it changes no other CSR and nothing else of the
state; an instruction that would write one of the four ID registers is illegal. -/
def Obligations.CsrWriteEffects : Prop :=
  ∀ (s : State) (v : Word),
    let reads := fun c => csrRead c (csrWrite c v s)
    (∀ p ∈ csrTable s, csrOfNum p.1 = some p.2.1 ∧ csrRead p.2.1 s = p.2.2) ∧
    (∀ n, csrOfNum n = none ↔ ∀ p ∈ csrTable s, n ≠ p.1) ∧
    (reads .mstatus).toNat = 0x1800 + (if v.getLsbD 7 then 0x80 else 0) + (if v.getLsbD 3 then 8 else 0) ∧
    reads .misa = 0x40000101#32 ∧
    (∀ k < 32, (reads .mie).getLsbD k = (v.getLsbD k && (k == 3 || k == 7 || decide (16 ≤ k)))) ∧
    (reads .mtvec).toNat = v.toNat / 4 * 4 + (if s.cfg.vectored then v.toNat % 2 else 0) ∧
    (reads .mepc).toNat = v.toNat / 4 * 4 ∧
    reads .mcause = v ∧ reads .mtval = v ∧ reads .mip = csrRead .mip s ∧
    (∀ k < 32, (reads .dcsr).getLsbD k = if k ∈ [2, 9, 10, 11, 15] then v.getLsbD k else s.dcsr.getLsbD k) ∧
    (reads .dpc).toNat = v.toNat / 4 * 4 ∧
    (∀ c d, c ≠ d → csrRead d (csrWrite c v s) = csrRead d s) ∧
    (∀ c, let t := csrWrite c v s
      t = { s with
        mstatus := t.mstatus, mie := t.mie, mtvec := t.mtvec, mepc := t.mepc, mcause := t.mcause, mtval := t.mtval,
        dcsr := t.dcsr, dpc := t.dpc }) ∧
    (∀ n ∈ [0xF11#12, 0xF12#12, 0xF13#12, 0xF14#12], ∀ rd rs1,
      RaisesOn (.csrrw rd n rs1) s 2 (encode (.csrrw rd n rs1)))

/-- `mip` (60 R420): bits 31:16 are the levels of the lines, bit 7 is the timer's comparison (60 R453), bit 3 is `msip`
(60 R455), the other bits are 0, whatever `mie` holds; and no CSR write changes it. -/
def Obligations.PendingBitsMirrorTheirSources : Prop :=
  ∀ s : State,
    (∀ k < 32, (csrRead .mip s).getLsbD k =
      if 16 ≤ k then s.irq.getLsbD (k - 16)
      else if k = 7 then decide (s.mtimecmp.toNat ≤ s.mtime.toNat)
      else if k = 3 then s.msip else false) ∧
    ∀ c v, csrRead .mip (csrWrite c v s) = csrRead .mip s

/-! ### Atomics (45_atomics) -/

/-- LR.W at an aligned address answered by storage (45 R321, R320): the word, the reservation at the address, nothing
else but the model's own record of constrained loops (log 15); `aq` and `rl` make no difference. -/
def Obligations.LoadReservedReserves : Prop :=
  ∀ (s : State) (rd rs1 : RegNum) (aq rl : Bool) (c : Nat),
    let a := s.getReg rs1
    a.toNat % 4 = 0 → ReachesStorage s a c →
    Reserves (.lrW aq rl rd rs1) s rd a (fun v => v = wordAt s.mem c)

/-- SC.W at an aligned address (45 R320, R322, R335). Without a reservation that covers the address it fails: `x[rd]`
takes 1 and nothing is stored. With one it stores the word and gives 0, unless it fails spuriously: outside a
constrained loop the free value of log 15 decides; in one it fails exactly while failures are still to come, a free
number drawn at the first attempt (the model's form of the fairness premise, log 15), which each failure lowers by one.
No step raises that number or loses it while the loop goes on: not the backward branch that retries, not the LR.W it
leads back to, not a trap or halt on that way and the return from it; only an LR.W that is no retry begins anew, and
MRET goes on with the loop interrupted where it returns to. The reservation is invalid afterwards. Where it would store
and nothing answers, SC.W raises Store Access Fault. -/
def Obligations.StoreConditionalStoresOrFails : Prop :=
  (∀ (s : State) (rd rs1 rs2 : RegNum) (aq rl : Bool),
    let a := s.getReg rs1
    let i := Instr.scW aq rl rd rs1 rs2
    let fails := fun l => ∃ t, exec i s = .next t ∧ Computes rd 1 { s with reservation := none, scLoop := l } t
    let stores :=
      (∀ c, ReachesStorage s a c →
        ∃ t, exec i s = .next t ∧ RegWritten rd 0 s t ∧ BytesStored c 4 (s.getReg rs2) s t ∧ GoesOn s t ∧
          StaleAfterStore c 4 s t ∧
          t = { s with
            x := t.x, mem := t.mem, stale := t.stale, reservation := none, scLoop := none, pc := t.pc, dm := t.dm }) ∧
      (Unmapped s a → RaisesOn i s 7 a)
    let attempt := fun l n =>
      s.scLoop = some l ∧ l.phase = .trying ∧ s.reservation = some a ∧
        (l.left = some n ∨ (l.left = none ∧ n = Config.spuriousRun s.free))
    a.toNat % 4 = 0 →
    (s.reserves a = false → fails none) ∧
    (s.reserves a = true → (∀ l n, ¬ attempt l n) →
      (Config.spuriousFail s.free = false → stores) ∧ (Config.spuriousFail s.free = true → fails none)) ∧
    (∀ l, attempt l 0 → stores) ∧
    (∀ l n, attempt l (n + 1) → fails (some { l with phase := .failed, left := some n }))) ∧
  (∀ (s t : State) (l k : ScLoop) (n : Nat), (deliver s).mode = .M → step s = .next t →
    (deliver s).scLoop = some l → l.left = some n → t.scLoop = some k →
    (∀ w aq rl rd rs1, fetch (deliver s) (deliver s).pc = some w → decode w = .ok (.lrW aq rl rd rs1) →
      l.phase = .retrying) →
    fetch (deliver s) (deliver s).pc ≠ some 0x30200073#32 →
    ∃ m ≤ n, k.left = some m) ∧
  (∀ (s : State) (l : ScLoop), s.mode = .M → s.scLoop = some l → l.phase = .retrying →
    s.loopAtLr = some { l with phase := .trying }) ∧
  (∀ (l k : ScLoop) (i : Instr) (pc next : Word), l.follow i pc next = some k → k.left = l.left) ∧
  (∀ (l : ScLoop) (pc next : Word) (rs1 rs2 : RegNum) (off : BitVec 13), l.phase = .failed →
    (pc - next).toNat < 64 → (l.start - next).toNat ≤ (pc - next).toNat →
    ∀ i ∈ [Instr.beq rs1 rs2 off, .bne rs1 rs2 off, .blt rs1 rs2 off, .bge rs1 rs2 off, .bltu rs1 rs2 off,
      .bgeu rs1 rs2 off], l.follow i pc next = some { l with start := next, phase := .retrying }) ∧
  ∀ (s : State) (p : Word) (l : ScLoop), s.scLoop = some l →
    (l.phase = .trying → s.parkLoop p = s.scParked) ∧
    (l.phase ≠ .trying → ∀ t : State, t.scParked = s.parkLoop p →
      t.parkedLoop p = some l ∧ t.parkedRest p = s.scParked)

/-- The nine AMOs at an aligned address answered by storage (45 R320, R323 to R332): the word stored, the old word in
`rd`, nothing else. -/
def Obligations.AtomicMemoryOperationResults : Prop :=
  ∀ (s : State) (rd rs1 rs2 : RegNum) (aq rl : Bool) (c : Nat),
    let a := s.getReg rs1
    let b := s.getReg rs2
    a.toNat % 4 = 0 → ReachesStorage s a c →
    ∀ f ∈ amoForms aq rl rd rs1 rs2, SwapsWord f.1 s a c rd (f.2 (wordAt s.mem c) b)

/-- What sets the reservation (45 R333): after any instruction that answers a next state it is what it was, or invalid,
or the address of the LR.W just executed; and a write of another bus manager does not touch it. -/
def Obligations.OnlyLoadReservedReserves : Prop :=
  (∀ (i : Instr) (s t : State), exec i s = .next t →
    t.reservation = s.reservation ∨ t.reservation = none ∨
      ∃ aq rl rd rs1, i = .lrW aq rl rd rs1 ∧ t.reservation = some (s.getReg rs1)) ∧
  ∀ (s : State) (cell : Nat) (value : Byte), (applyInput s (.busWrite cell value)).reservation = s.reservation

/-! ### Interrupts (60 sections 3 and 4) -/

/-- When an interrupt is taken (60 R422, R428): at a boundary in M-mode (not during a single step) exactly when
`mstatus`.MIE = 1 and `mip & mie` is not 0; it is one whose bit is set there; `mtval` is 0 and `mepc` the `pc` at the
boundary; otherwise the step goes to the fetch. -/
def Obligations.InterruptTakenExactlyWhen : Prop :=
  ∀ s : State, Running (deliver s) → (deliver s).stepping = false →
    ((deliver s).mstatus.getLsbD 3 = true ∧ (deliver s).mip &&& (deliver s).mie ≠ 0 →
      ∃ code t, ((deliver s).mip &&& (deliver s).mie).getLsbD code = true ∧
        Traps true code 0 (deliver s).pc { deliver s with waiting := false } t ∧ step s = .next (tick (deliver s) t)) ∧
    (¬ ((deliver s).mstatus.getLsbD 3 = true ∧ (deliver s).mip &&& (deliver s).mie ≠ 0) →
      step s = mapNext (fun t => tick (deliver s) (afterStep t)) (fetchDecodeExec { deliver s with waiting := false }))

/-- A halt request at a boundary in M-mode wins over a wait, an interrupt and the next instruction (60 R471, R474): the
hart is halted with cause 3 and `dpc` the address of the instruction it did not start. -/
def Obligations.HaltRequestWins : Prop :=
  ∀ s : State, (deliver s).inReset = false → (deliver s).mode = .M → (deliver s).dm.haltreq = true →
    ∃ t, Halts 3 (deliver s).pc (deliver s) t ∧ step s = .next (tick (deliver s) t)

/-- Single step (60 R473): a hart that owes one step is halted with cause 4 after it, at the `pc` the step leaves, be
it an instruction, a trap or an interrupt taken with `dcsr`.stepie set. -/
def Obligations.SingleStepHaltsAfterOneStep : Prop :=
  ∀ s : State, Running (deliver s) → (deliver s).stepping = true →
    (NoInterrupt (deliver s) → ∀ t, fetchDecodeExec { deliver s with waiting := false } = .next t → t.mode = .M →
      ∃ u, Halts 4 t.pc t u ∧ step s = .next (tick (deliver s) u)) ∧
    (¬ NoInterrupt (deliver s) →
      ∃ code t u, ((deliver s).mip &&& (deliver s).mie).getLsbD code = true ∧
        Traps true code 0 (deliver s).pc { deliver s with waiting := false } t ∧ Halts 4 t.pc t u ∧
        step s = .next (tick (deliver s) u))

/-! ### Debug mode (60 section 9) -/

/-- While halted with the program buffer not running, a step changes nothing but the timer (60 R475, R452), which
advances by at least 1 unless `dcsr`.stoptime is set (log 8). -/
def Obligations.HaltedHartIdles : Prop :=
  ∀ s : State, (deliver s).inReset = false → (deliver s).mode = .D → (deliver s).dm.pbIndex = none →
    step s = .next { deliver s with
      mtime := (deliver s).mtime + BitVec.ofNat 64 (tickAmount (deliver s)), free := (deliver s).free + 1 } ∧
      ((deliver s).dcsr.getLsbD 9 = false → 1 ≤ tickAmount (deliver s))

/-- No instruction of the program buffer but a CSR instruction changes a trap or debug register, an exception in it
among them (60 R476). -/
def Obligations.DebugModeKeepsTrapRegisters : Prop :=
  ∀ (i : Instr) (s t : State), s.mode = .D → exec i s = .next t →
    (∀ rd n r, i ≠ .csrrw rd n r ∧ i ≠ .csrrs rd n r ∧ i ≠ .csrrc rd n r ∧
      i ≠ .csrrwi rd n r ∧ i ≠ .csrrsi rd n r ∧ i ≠ .csrrci rd n r) →
    t.mstatus = s.mstatus ∧ t.mie = s.mie ∧ t.mtvec = s.mtvec ∧ t.mepc = s.mepc ∧ t.mcause = s.mcause ∧
      t.mtval = s.mtval ∧ t.dcsr = s.dcsr ∧ t.dpc = s.dpc

/-- The ways a step leads from M-mode into D-mode (60 R471, whose fourth way, halt on reset, is an input): a step of a
hart in M-mode that ends in D-mode began with a halt request, or executed an EBREAK with `dcsr`.ebreakm set, or ended a
single step; `dcsr`.cause says which (an EBREAK that is the single step gives 1: log 26). -/
def Obligations.StepsFromMModeIntoDebugMode : Prop :=
  ∀ s t : State, (deliver s).mode = .M → step s = .next t → t.mode = .D →
    ((deliver s).dm.haltreq = true ∧ t.dcsr.extractLsb' 6 3 = 3#3) ∨
    ((deliver s).dcsr.getLsbD 15 = true ∧ fetch (deliver s) (deliver s).pc = some 0x00100073#32 ∧
      t.dcsr.extractLsb' 6 3 = 1#3) ∨
    ((deliver s).stepping = true ∧ t.dcsr.extractLsb' 6 3 = 4#3)

/-- When a step does not answer a next state (00_scope R18; 93 section 1; 60 R476): exactly when the program buffer,
running in D-mode, has run past its last word or has reached ECALL, MRET or WFI. In M-mode the hart never stops. The
three refusals and the fault are the model's choice of log 21. -/
def Obligations.StopsOnlyInTheProgramBuffer : Prop :=
  ∀ s : State,
    (∃ t, step s = .next t) ↔
      ¬ ((deliver s).inReset = false ∧ (deliver s).mode = .D ∧
        ∃ k, (deliver s).dm.pbIndex = some k ∧
          ∀ w, (deliver s).dm.progbuf[k]? = some w → w ∈ [0x00000073#32, 0x30200073#32, 0x10500073#32])

/-- The Access Register command's rejections (60 R478, R479): ignored while `cmderr` is not 0; 2 for another cmdtype;
1 (Busy) while the program buffer runs; 4 when the selected hart is not halted; 2 for a transfer of another size than
32 bits or of a register that does not exist. Nothing is transferred, and the hart is untouched. The model's choices in
this: Busy is DEDUCED (log 5); what `command` holds after a rejection, that bit 23 makes no difference, and 2 rather
than 3 for a CSR that does not exist, are those of log 27. -/
def Obligations.AbstractCommandRejections : Prop :=
  ∀ (s : State) (v : Word),
    let t := applyInput s (.command v)
    let rejected := fun (code : BitVec 3) =>
      t.dm.cmderr = code ∧ t = { s with dm := { s.dm with cmderr := code, command := v } }
    (s.dm.cmderr ≠ 0 → t = s) ∧
    (s.dm.cmderr = 0 → v.toNat / 2 ^ 24 ≠ 0 → rejected 2) ∧
    (s.dm.cmderr = 0 → v.toNat / 2 ^ 24 = 0 → s.dm.pbIndex ≠ none →
      t.dm.cmderr = 1 ∧ t = { s with dm := { s.dm with cmderr := 1 } }) ∧
    (s.dm.cmderr = 0 → v.toNat / 2 ^ 24 = 0 → s.dm.pbIndex = none →
      s.mode = .M ∨ s.inReset = true ∨ s.dm.hartsel ≠ 0 → rejected 4) ∧
    (s.dm.cmderr = 0 → v.toNat / 2 ^ 24 = 0 → s.dm.pbIndex = none → s.mode = .D → s.inReset = false →
      s.dm.hartsel = 0 → v.getLsbD 17 = true →
      (v.toNat / 2 ^ 20 % 8 ≠ 2 ∨
        (∀ n ∈ csrNumbers, v.toNat % 2 ^ 16 ≠ n.toNat) ∧ ¬ (0x1000 ≤ v.toNat % 2 ^ 16 ∧ v.toNat % 2 ^ 16 < 0x1020)) →
      rejected 2)

/-- The Access Register command on a halted hart (60 R478): with transfer = 1, a general register or a CSR to `data0` or
from it; with transfer = 0, nothing transferred, whatever size and register are named; then the increment of `regno`
and the start of the program buffer if asked; nothing else changes, in the Debug Module neither. The model's choices in
this (log 27): bit 23 makes no difference, and a write to one of the four read-only CSRs completes without a change. -/
def Obligations.AbstractCommandTransfers : Prop :=
  ∀ (s : State) (v : Word),
    let t := applyInput s (.command v)
    let regno := v.toNat % 2 ^ 16
    s.dm.cmderr = 0 → v.toNat / 2 ^ 24 = 0 → s.dm.pbIndex = none → s.mode = .D → s.inReset = false →
    s.dm.hartsel = 0 →
    let done :=
      t.dm.command.toNat = v.toNat / 2 ^ 16 * 2 ^ 16 + (if v.getLsbD 19 then (regno + 1) % 2 ^ 16 else regno) ∧
      t.dm = { s.dm with
        command := t.dm.command, data0 := t.dm.data0, pbIndex := if v.getLsbD 18 then some 0 else none }
    (v.getLsbD 17 = false → done ∧ t.dm.data0 = s.dm.data0 ∧ t = { s with dm := t.dm }) ∧
    (v.getLsbD 17 = true → v.toNat / 2 ^ 20 % 8 = 2 →
      ((0x1000 ≤ regno ∧ regno < 0x1020) ∨ ∃ n ∈ csrNumbers, regno = n.toNat) →
      done ∧
      (v.getLsbD 16 = false →
        (∀ r : RegNum, regno = 0x1000 + r.toNat → t.dm.data0 = s.getReg r) ∧
        (∀ n c, csrOfNum n = some c → regno = n.toNat → t.dm.data0 = csrRead c s) ∧ t = { s with dm := t.dm }) ∧
      (v.getLsbD 16 = true →
        t.dm.data0 = s.dm.data0 ∧
        (∀ r : RegNum, regno = 0x1000 + r.toNat → RegWritten r s.dm.data0 s t ∧ t = { s with x := t.x, dm := t.dm }) ∧
        (∀ n c, csrOfNum n = some c → regno = n.toNat → t = { csrWrite c s.dm.data0 s with dm := t.dm })))

/-- The Debug Module's registers (60 R479, R480, R481). `cmderr`: writing ones to `abstractcs`[10:8] clears those bits of
it and nothing else; an exception in the program buffer sets it to 3 only where no earlier error stands. What the
debugger reads: `data0`, `command`, `cmderr` in `abstractcs`[10:8], the program buffer, `haltsum0` with bit 0 for a
halted hart and 0 above, 0 at an unimplemented address; the state of the selected hart in `dmstatus` and `hartsel` in
`dmcontrol` (their places, and that `command` reads as it is held, are the model's choice, log 28). -/
def Obligations.DebugModuleRegistersAndCmderr : Prop :=
  (∀ (s : State) (v : Word),
    let t := applyInput s (.abstractcs v)
    t = { s with dm := { s.dm with cmderr := t.dm.cmderr } } ∧
      ∀ k < 3, t.dm.cmderr.getLsbD k = (s.dm.cmderr.getLsbD k && !v.getLsbD (8 + k))) ∧
  (∀ (i : Instr) (s t : State), s.mode = .D → exec i s = .next t →
    t.dm.cmderr = s.dm.cmderr ∨ (s.dm.cmderr = 0 ∧ t.dm.cmderr = 3 ∧ t.dm.pbIndex = none)) ∧
  (∀ s : State,
    s.dmRead 0x04 = s.dm.data0 ∧ s.dmRead 0x17 = s.dm.command ∧
    (∀ k < 3, (s.dmRead 0x16).getLsbD (8 + k) = s.dm.cmderr.getLsbD k) ∧
    (∀ k < 16, ∀ w, s.dm.progbuf[k]? = some w → s.dmRead (0x20 + k) = w) ∧
    (s.dmRead 0x40).toNat = (if s.inReset = false ∧ s.mode = .D then 1 else 0) ∧
    (∀ addr, addr ∉ [0x04, 0x10, 0x11, 0x16, 0x17, 0x40] → addr < 0x20 ∨ 0x30 ≤ addr → s.dmRead addr = 0) ∧
    (∀ k < 8, (s.dmRead 0x11).getLsbD (8 + k) =
      decide (k / 2 = match s.hartStatus with
        | .halted => 0
        | .running => 1
        | .unavailable => 2
        | .nonExistent => 3)) ∧
    (s.dmRead 0x10).toNat / 2 ^ 16 % 2 ^ 10 = s.dm.hartsel % 2 ^ 10 ∧
    (s.dmRead 0x10).toNat / 2 ^ 6 % 2 ^ 10 = s.dm.hartsel / 2 ^ 10 % 2 ^ 10) ∧
  (∀ s : State,
    (s.hartStatus = .nonExistent ↔ s.dm.hartsel ≠ 0) ∧
    (s.hartStatus = .unavailable ↔ s.dm.hartsel = 0 ∧ s.inReset = true) ∧
    (s.hartStatus = .running ↔ s.dm.hartsel = 0 ∧ s.inReset = false ∧ s.mode = .M) ∧
    (s.hartStatus = .halted ↔ s.dm.hartsel = 0 ∧ s.inReset = false ∧ s.mode = .D))

/-! ### Reset and time (70_reset_and_hazards, 60 section 7) -/

/-- What the release of reset leaves when no halt is armed (70 R500, R501; 10 R60), for all unspecified values and all
parameters: the values of the table; storage and the lines as they were. -/
def Obligations.ResetLeaves : Prop :=
  ∀ (s : State) (u : ResetValues), s.inReset = true → s.dm.resetHaltReq = false →
    let t := applyInput s (.releaseReset u)
    t.mode = .M ∧ t.inReset = false ∧ t.pc = s.cfg.resetAddr ∧ t.mstatus.getLsbD 3 = false ∧
    t.mstatus &&& 0xFFFFFF77#32 = 0x00001800#32 ∧ t.mtvec.toNat = s.cfg.excAddr.toNat / 4 * 4 ∧ t.mcause = 0 ∧
    t.dcsr.toNat = 4 * 2 ^ 28 + 3 ∧ t.msip = false ∧ t.reservation = none ∧ t.stale = [] ∧ t.getReg 0 = 0 ∧
    SameStorage s t ∧ t.irq = s.irq ∧ t.cfg = s.cfg ∧
    (∀ r, r ≠ 0 → t.getReg r = u.x[r.toNat]) ∧ t.mtime = u.mtime ∧ t.mtimecmp = u.mtimecmp

/-- Halt on reset (70 R502; 60 R471): when it is armed, the release of reset leaves the hart halted with cause 5 and
`dpc` the reset address, before any instruction; when it is not, in M-mode. -/
def Obligations.ArmedResetHalts : Prop :=
  ∀ (s : State) (u : ResetValues), s.inReset = true →
    (s.dm.resetHaltReq = true →
      Halts 5 s.cfg.resetAddr (s.afterReset u) (applyInput s (.releaseReset u)) ∧
      (applyInput s (.releaseReset u)).hartStatus = (if s.dm.hartsel = 0 then .halted else .nonExistent)) ∧
    (s.dm.resetHaltReq = false → (applyInput s (.releaseReset u)).mode = .M)

/-- The timer (60 R452): each step that answers a next state ends with `mtime` advanced, modulo 2^64, by the model's
amount `tickAmount` (log 8), which is at least 1 for a step that begins in M-mode, also where it ends in D-mode, and for
one that begins in D-mode unless `dcsr`.stoptime is set; nothing else but the free values' counter changes with it. -/
def Obligations.TimerAdvancesEveryStep : Prop :=
  ∀ s t : State, step s = .next t →
    ∃ u, cycle (deliver s) = .next u ∧
      ((deliver s).mode = .M ∨ (deliver s).dcsr.getLsbD 9 = false → 1 ≤ tickAmount (deliver s)) ∧
      t = { u with mtime := u.mtime + BitVec.ofNat 64 (tickAmount (deliver s)), free := u.free + 1 }

/-! ### Invariants -/

/-- Every step keeps the legal states: storage in canonical form, the hardwired CSR fields at their values,
`dcsr`.cause one of 0, 1, 3, 4, 5, the modes consistent (10 R39 to R48; 60 R471, R473, R475, R481, R484). -/
def Obligations.StepKeepsLegalStates : Prop :=
  ∀ s t : State, Legal s → step s = .next t → Legal t

/-- The state after reset is legal (10 R60; 70 R500); its parameters and unspecified values are the model's, logs 1
and 2. -/
def Obligations.ResetIsLegal : Prop := Legal State.reset ∧ PcLegal State.reset

/-- Every step keeps the instruction address even, and a multiple of 4 where jumps report misaligned targets
themselves and in D-mode (10 R23, R43, R48; 20 R96; 41 R243, R252). -/
def Obligations.StepKeepsInstructionAddressesAligned : Prop :=
  ∀ s t : State, PcLegal s → step s = .next t → PcLegal t

/-- No step changes the parameters of the system (00_scope R8), and none in which no input arrives changes the levels
of the interrupt lines (10 R52). -/
def Obligations.StepKeepsParameters : Prop :=
  ∀ s t : State, step s = .next t → t.cfg = s.cfg ∧ (s.inbox = [] → t.irq = s.irq)
end

