-- ==== Sys2Proof/Laws/Memory.lean ====
section
/-! SUPPORT. Storage: a read after a write, and the canonical form kept by every operation. -/

namespace Sys2Proof
namespace Machine

theorem Memory.read_erase (m : Memory) (c d : Nat) :
    Memory.read (Memory.erase m c) d = if d = c then 0 else Memory.read m d := by
  induction m with
  | nil => simp [Memory.erase, Memory.read]
  | cons p m ih =>
    obtain ⟨a, b⟩ := p
    simp only [Memory.erase, List.filter_cons] at ih ⊢
    by_cases h : a = c
    · subst h
      simp only [bne_self_eq_false, Bool.false_eq_true, if_false, ih, Memory.read]
      by_cases hd : d = a
      · simp [hd]
      · simp [hd, Ne.symm hd]
    · simp only [bne_iff_ne, ne_eq, h, not_false_eq_true, if_true, Memory.read, ih]
      by_cases hd : a = d
      · subst hd; simp [h]
      · simp [hd]

theorem Memory.read_insert (m : Memory) (c d : Nat) (v : Byte) (h : ∀ p ∈ m, p.1 ≠ c) :
    Memory.read (Memory.insert m c v) d = if d = c then v else Memory.read m d := by
  induction m with
  | nil => simp only [Memory.insert, Memory.read, eq_comm]
  | cons p m ih =>
    obtain ⟨a, b⟩ := p
    have hac : a ≠ c := h (a, b) (by simp)
    simp only [Memory.insert]
    split
    · simp only [Memory.read, eq_comm (a := c)]
    · simp only [Memory.read]
      rw [ih (fun p hp => h p (by simp [hp]))]
      by_cases hd : a = d
      · subst hd; simp [hac]
      · simp [hd]

theorem Memory.erase_absent (m : Memory) (c : Nat) : ∀ p ∈ Memory.erase m c, p.1 ≠ c := by
  intro p hp
  simpa using (List.mem_filter.mp hp).2

/-- What a write does to every read. -/
theorem Memory.read_write (m : Memory) (c d : Nat) (v : Byte) :
    Memory.read (Memory.write m c v) d = if d = c then v else Memory.read m d := by
  unfold Memory.write
  split
  · rename_i h; rw [Memory.read_erase, h]
  · rw [Memory.read_insert _ _ _ _ (Memory.erase_absent m c), Memory.read_erase]
    split <;> simp_all

/-- What a store does to every read: the bytes of the value from the lowest cell up, every other cell as before. -/
theorem Memory.read_store (m : Memory) (z : AccessSize) (c d : Nat) (v : Word) :
    Memory.read (Memory.store m z c v) d =
      if c ≤ d ∧ d < c + z.bytes then v.extractLsb' (8 * (d - c)) 8 else Memory.read m d := by
  have hb : z.bytes = 1 ∧ z = .byte ∨ z.bytes = 2 ∧ z = .half ∨ z.bytes = 4 ∧ z = .word := by
    cases z <;> simp [AccessSize.bytes]
  by_cases hin : c ≤ d ∧ d < c + z.bytes
  · rw [if_pos hin]
    obtain ⟨k, rfl⟩ : ∃ k, d = c + k := ⟨d - c, by omega⟩
    rw [Nat.add_sub_cancel_left]
    rcases hb with ⟨h, rfl⟩ | ⟨h, rfl⟩ | ⟨h, rfl⟩ <;> rw [h] at hin
    · obtain rfl : k = 0 := by omega
      simp [Memory.store, Memory.read_write]
    · obtain rfl | rfl : k = 0 ∨ k = 1 := by omega
      all_goals simp [Memory.store, Memory.read_write]
    · obtain rfl | rfl | rfl | rfl : k = 0 ∨ k = 1 ∨ k = 2 ∨ k = 3 := by omega
      all_goals simp [Memory.store, Memory.read_write]
  · rw [if_neg hin]
    rcases hb with ⟨h, rfl⟩ | ⟨h, rfl⟩ | ⟨h, rfl⟩ <;> rw [h] at hin <;>
      simp only [Memory.store, Memory.read_write]
    · rw [if_neg (by omega)]
    · rw [if_neg (by omega), if_neg (by omega)]
    · rw [if_neg (by omega), if_neg (by omega), if_neg (by omega), if_neg (by omega)]

/-! ### The canonical form -/

/-- The canonical form as an order on the whole list. -/
theorem Memory.wf_iff (m : Memory) :
    Memory.wf m = true ↔ (∀ p ∈ m, p.2 ≠ 0) ∧ m.Pairwise (fun p q => p.1 < q.1) := by
  induction m with
  | nil => simp [Memory.wf]
  | cons p m ih =>
    obtain ⟨a, b⟩ := p
    cases m with
    | nil => simp [Memory.wf]
    | cons q m =>
      obtain ⟨a', b'⟩ := q
      simp only [Memory.wf, Bool.and_eq_true, bne_iff_ne, ne_eq, decide_eq_true_eq, ih]
      constructor
      · rintro ⟨⟨hb, hlt⟩, hz, hp⟩
        refine ⟨?_, ?_⟩
        · intro p hp'
          rcases List.mem_cons.mp hp' with rfl | h
          · exact hb
          · exact hz p h
        · refine List.pairwise_cons.mpr ⟨?_, hp⟩
          intro q hq
          rcases List.mem_cons.mp hq with rfl | h
          · exact hlt
          · exact Nat.lt_trans hlt ((List.pairwise_cons.mp hp).1 q h)
      · rintro ⟨hz, hp⟩
        have hp' := List.pairwise_cons.mp hp
        exact ⟨⟨hz (a, b) (by simp), hp'.1 (a', b') (by simp)⟩,
          fun p h => hz p (List.mem_cons_of_mem _ h), hp'.2⟩

theorem Memory.mem_insert (m : Memory) (c : Nat) (v : Byte) (p : Host.Cell) (h : p ∈ Memory.insert m c v) :
    p = (c, v) ∨ p ∈ m := by
  induction m with
  | nil => simpa [Memory.insert] using h
  | cons q m ih =>
    obtain ⟨a, b⟩ := q
    simp only [Memory.insert] at h
    split at h
    · simpa using h
    · rcases List.mem_cons.mp h with rfl | h
      · simp
      · rcases ih h with h | h
        · exact .inl h
        · exact .inr (List.mem_cons_of_mem _ h)

theorem Memory.wf_erase (m : Memory) (c : Nat) (h : Memory.wf m = true) : Memory.wf (Memory.erase m c) = true := by
  rw [Memory.wf_iff] at h ⊢
  exact ⟨fun p hp => h.1 p (List.mem_filter.mp hp).1, h.2.filter _⟩

theorem Memory.wf_insert (m : Memory) (c : Nat) (v : Byte) (h : Memory.wf m = true) (hc : ∀ p ∈ m, p.1 ≠ c)
    (hv : v ≠ 0) : Memory.wf (Memory.insert m c v) = true := by
  rw [Memory.wf_iff] at h ⊢
  refine ⟨fun p hp => ?_, ?_⟩
  · rcases Memory.mem_insert m c v p hp with rfl | h'
    · exact hv
    · exact h.1 p h'
  · obtain ⟨-, hp⟩ := h
    induction m with
    | nil => simp [Memory.insert]
    | cons q m ih =>
      obtain ⟨a, b⟩ := q
      have hac : a ≠ c := hc (a, b) (by simp)
      have hpm := List.pairwise_cons.mp hp
      simp only [Memory.insert]
      split
      · rename_i hlt
        refine List.pairwise_cons.mpr ⟨fun p hp' => ?_, hp⟩
        rcases List.mem_cons.mp hp' with rfl | h'
        · exact hlt
        · exact Nat.lt_trans hlt (hpm.1 p h')
      · rename_i hlt
        refine List.pairwise_cons.mpr ⟨fun p hp' => ?_, ih (fun p h => hc p (by simp [h])) hpm.2⟩
        rcases Memory.mem_insert m c v p hp' with rfl | h'
        · show a < c
          omega
        · exact hpm.1 p h'

/-- A write keeps the canonical form. -/
theorem Memory.wf_write (m : Memory) (c : Nat) (v : Byte) (h : Memory.wf m = true) :
    Memory.wf (Memory.write m c v) = true := by
  unfold Memory.write
  split
  · exact Memory.wf_erase m c h
  · rename_i hv
    exact Memory.wf_insert _ _ _ (Memory.wf_erase m c h) (Memory.erase_absent m c) hv

/-- A store keeps the canonical form. -/
theorem Memory.wf_store (m : Memory) (z : AccessSize) (c : Nat) (v : Word) (h : Memory.wf m = true) :
    Memory.wf (Memory.store m z c v) = true := by
  cases z <;> simp only [Memory.store]
  · exact Memory.wf_write _ _ _ h
  · exact Memory.wf_write _ _ _ (Memory.wf_write _ _ _ h)
  · exact Memory.wf_write _ _ _ (Memory.wf_write _ _ _ (Memory.wf_write _ _ _ (Memory.wf_write _ _ _ h)))

/-- The four bytes of a word, put together again. -/
theorem bytes_append (v : Word) :
    v.extractLsb' 24 8 ++ v.extractLsb' 16 8 ++ v.extractLsb' 8 8 ++ v.extractLsb' 0 8 = v := by
  ext i hi
  simp only [BitVec.getElem_append, BitVec.getElem_extractLsb']
  have hi' : i < 32 := hi
  rw [← BitVec.getLsbD_eq_getElem]
  split
  · congr 1; omega
  · split
    · congr 1; omega
    · split <;> congr 1 <;> omega

/-- A word loaded from the cells it was stored to is the word stored. -/
theorem Memory.load_store_word (m : Memory) (c : Nat) (v : Word) :
    Memory.load (Memory.store m .word c v) .word c = v := by
  have h (k : Nat) (hk : k < 4) : Memory.read (Memory.store m .word c v) (c + k) = v.extractLsb' (8 * k) 8 := by
    rw [Memory.read_store, if_pos ⟨by omega, by show c + k < c + 4; omega⟩, Nat.add_sub_cancel_left]
  have h0 := h 0 (by omega)
  rw [Nat.add_zero] at h0
  simp only [Memory.load, h 3 (by omega), h 2 (by omega), h 1 (by omega), h0]
  exact bytes_append v

end Machine
end Sys2Proof
end

