-- ==== Sys2Proof/Laws/State.lean ====
section
/-! SUPPORT. One lemma for each field of State and each update of State. -/

namespace Sys2Proof
namespace Machine

/-! ### `State.setReg` -/

@[simp] theorem setReg_cfg (s : State) (r : RegNum) (v : Word) : (s.setReg r v).cfg = s.cfg := rfl
@[simp] theorem setReg_x (s : State) (r : RegNum) (v : Word) :
    (s.setReg r v).x = if r = 0 then s.x else s.x.set r.toNat v := rfl
@[simp] theorem setReg_pc (s : State) (r : RegNum) (v : Word) : (s.setReg r v).pc = s.pc := rfl
@[simp] theorem setReg_mode (s : State) (r : RegNum) (v : Word) : (s.setReg r v).mode = s.mode := rfl
@[simp] theorem setReg_mstatus (s : State) (r : RegNum) (v : Word) : (s.setReg r v).mstatus = s.mstatus := rfl
@[simp] theorem setReg_mie (s : State) (r : RegNum) (v : Word) : (s.setReg r v).mie = s.mie := rfl
@[simp] theorem setReg_mtvec (s : State) (r : RegNum) (v : Word) : (s.setReg r v).mtvec = s.mtvec := rfl
@[simp] theorem setReg_mepc (s : State) (r : RegNum) (v : Word) : (s.setReg r v).mepc = s.mepc := rfl
@[simp] theorem setReg_mcause (s : State) (r : RegNum) (v : Word) : (s.setReg r v).mcause = s.mcause := rfl
@[simp] theorem setReg_mtval (s : State) (r : RegNum) (v : Word) : (s.setReg r v).mtval = s.mtval := rfl
@[simp] theorem setReg_dcsr (s : State) (r : RegNum) (v : Word) : (s.setReg r v).dcsr = s.dcsr := rfl
@[simp] theorem setReg_dpc (s : State) (r : RegNum) (v : Word) : (s.setReg r v).dpc = s.dpc := rfl
@[simp] theorem setReg_reservation (s : State) (r : RegNum) (v : Word) :
    (s.setReg r v).reservation = s.reservation := rfl
@[simp] theorem setReg_scLoop (s : State) (r : RegNum) (v : Word) :
    (s.setReg r v).scLoop = s.scLoop := rfl
@[simp] theorem setReg_scParked (s : State) (r : RegNum) (v : Word) :
    (s.setReg r v).scParked = s.scParked := rfl
@[simp] theorem setReg_waiting (s : State) (r : RegNum) (v : Word) : (s.setReg r v).waiting = s.waiting := rfl
@[simp] theorem setReg_stepping (s : State) (r : RegNum) (v : Word) : (s.setReg r v).stepping = s.stepping := rfl
@[simp] theorem setReg_inReset (s : State) (r : RegNum) (v : Word) : (s.setReg r v).inReset = s.inReset := rfl
@[simp] theorem setReg_mem (s : State) (r : RegNum) (v : Word) : (s.setReg r v).mem = s.mem := rfl
@[simp] theorem setReg_stale (s : State) (r : RegNum) (v : Word) : (s.setReg r v).stale = s.stale := rfl
@[simp] theorem setReg_mtime (s : State) (r : RegNum) (v : Word) : (s.setReg r v).mtime = s.mtime := rfl
@[simp] theorem setReg_mtimecmp (s : State) (r : RegNum) (v : Word) : (s.setReg r v).mtimecmp = s.mtimecmp := rfl
@[simp] theorem setReg_msip (s : State) (r : RegNum) (v : Word) : (s.setReg r v).msip = s.msip := rfl
@[simp] theorem setReg_irq (s : State) (r : RegNum) (v : Word) : (s.setReg r v).irq = s.irq := rfl
@[simp] theorem setReg_dm (s : State) (r : RegNum) (v : Word) : (s.setReg r v).dm = s.dm := rfl
@[simp] theorem setReg_inbox (s : State) (r : RegNum) (v : Word) : (s.setReg r v).inbox = s.inbox := rfl
@[simp] theorem setReg_devLog (s : State) (r : RegNum) (v : Word) : (s.setReg r v).devLog = s.devLog := rfl
@[simp] theorem setReg_free (s : State) (r : RegNum) (v : Word) : (s.setReg r v).free = s.free := rfl

/-! ### `State.advance` -/

@[simp] theorem advance_cfg (s : State) : s.advance.cfg = s.cfg := rfl
@[simp] theorem advance_x (s : State) : s.advance.x = s.x := rfl
@[simp] theorem advance_pc (s : State) : s.advance.pc = if s.mode = .M then s.pc + 4 else s.pc := rfl
@[simp] theorem advance_mode (s : State) : s.advance.mode = s.mode := rfl
@[simp] theorem advance_mstatus (s : State) : s.advance.mstatus = s.mstatus := rfl
@[simp] theorem advance_mie (s : State) : s.advance.mie = s.mie := rfl
@[simp] theorem advance_mtvec (s : State) : s.advance.mtvec = s.mtvec := rfl
@[simp] theorem advance_mepc (s : State) : s.advance.mepc = s.mepc := rfl
@[simp] theorem advance_mcause (s : State) : s.advance.mcause = s.mcause := rfl
@[simp] theorem advance_mtval (s : State) : s.advance.mtval = s.mtval := rfl
@[simp] theorem advance_dcsr (s : State) : s.advance.dcsr = s.dcsr := rfl
@[simp] theorem advance_dpc (s : State) : s.advance.dpc = s.dpc := rfl
@[simp] theorem advance_reservation (s : State) : s.advance.reservation = s.reservation := rfl
@[simp] theorem advance_scLoop (s : State) : s.advance.scLoop = s.scLoop := rfl
@[simp] theorem advance_scParked (s : State) : s.advance.scParked = s.scParked := rfl
@[simp] theorem advance_waiting (s : State) : s.advance.waiting = s.waiting := rfl
@[simp] theorem advance_stepping (s : State) : s.advance.stepping = s.stepping := rfl
@[simp] theorem advance_inReset (s : State) : s.advance.inReset = s.inReset := rfl
@[simp] theorem advance_mem (s : State) : s.advance.mem = s.mem := rfl
@[simp] theorem advance_stale (s : State) : s.advance.stale = s.stale := rfl
@[simp] theorem advance_mtime (s : State) : s.advance.mtime = s.mtime := rfl
@[simp] theorem advance_mtimecmp (s : State) : s.advance.mtimecmp = s.mtimecmp := rfl
@[simp] theorem advance_msip (s : State) : s.advance.msip = s.msip := rfl
@[simp] theorem advance_irq (s : State) : s.advance.irq = s.irq := rfl
@[simp] theorem advance_dm (s : State) : s.advance.dm = if s.mode = .M then s.dm else s.dm.nextIndex := rfl
@[simp] theorem advance_inbox (s : State) : s.advance.inbox = s.inbox := rfl
@[simp] theorem advance_devLog (s : State) : s.advance.devLog = s.devLog := rfl
@[simp] theorem advance_free (s : State) : s.advance.free = s.free := rfl

/-! ### `trapEntry` -/

@[simp] theorem trapEntry_cfg (i : Bool) (c : BitVec 31) (v e : Word) (s : State) :
    (trapEntry i c v e s).cfg = s.cfg := rfl
@[simp] theorem trapEntry_x (i : Bool) (c : BitVec 31) (v e : Word) (s : State) : (trapEntry i c v e s).x = s.x := rfl
@[simp] theorem trapEntry_pc (i : Bool) (c : BitVec 31) (v e : Word) (s : State) :
    (trapEntry i c v e s).pc = s.handlerAddress i c := rfl
@[simp] theorem trapEntry_mode (i : Bool) (c : BitVec 31) (v e : Word) (s : State) :
    (trapEntry i c v e s).mode = s.mode := rfl
@[simp] theorem trapEntry_mstatus (i : Bool) (c : BitVec 31) (v e : Word) (s : State) :
    (trapEntry i c v e s).mstatus = mstatusWord false s.mstatusMIE := rfl
@[simp] theorem trapEntry_mie (i : Bool) (c : BitVec 31) (v e : Word) (s : State) :
    (trapEntry i c v e s).mie = s.mie := rfl
@[simp] theorem trapEntry_mtvec (i : Bool) (c : BitVec 31) (v e : Word) (s : State) :
    (trapEntry i c v e s).mtvec = s.mtvec := rfl
@[simp] theorem trapEntry_mepc (i : Bool) (c : BitVec 31) (v e : Word) (s : State) :
    (trapEntry i c v e s).mepc = e &&& 0xFFFFFFFC#32 := rfl
@[simp] theorem trapEntry_mcause (i : Bool) (c : BitVec 31) (v e : Word) (s : State) :
    (trapEntry i c v e s).mcause = BitVec.ofBool i ++ c := rfl
@[simp] theorem trapEntry_mtval (i : Bool) (c : BitVec 31) (v e : Word) (s : State) :
    (trapEntry i c v e s).mtval = v := rfl
@[simp] theorem trapEntry_dcsr (i : Bool) (c : BitVec 31) (v e : Word) (s : State) :
    (trapEntry i c v e s).dcsr = s.dcsr := rfl
@[simp] theorem trapEntry_dpc (i : Bool) (c : BitVec 31) (v e : Word) (s : State) :
    (trapEntry i c v e s).dpc = s.dpc := rfl
@[simp] theorem trapEntry_reservation (i : Bool) (c : BitVec 31) (v e : Word) (s : State) :
    (trapEntry i c v e s).reservation = keepReservation (Config.trapKeepsReservation s.free) s.reservation := rfl
@[simp] theorem trapEntry_scLoop (i : Bool) (c : BitVec 31) (v e : Word) (s : State) :
    (trapEntry i c v e s).scLoop = none := rfl
@[simp] theorem trapEntry_scParked (i : Bool) (c : BitVec 31) (v e : Word) (s : State) :
    (trapEntry i c v e s).scParked = s.parkLoop (e &&& 0xFFFFFFFC#32) := rfl
@[simp] theorem trapEntry_waiting (i : Bool) (c : BitVec 31) (v e : Word) (s : State) :
    (trapEntry i c v e s).waiting = s.waiting := rfl
@[simp] theorem trapEntry_stepping (i : Bool) (c : BitVec 31) (v e : Word) (s : State) :
    (trapEntry i c v e s).stepping = s.stepping := rfl
@[simp] theorem trapEntry_inReset (i : Bool) (c : BitVec 31) (v e : Word) (s : State) :
    (trapEntry i c v e s).inReset = s.inReset := rfl
@[simp] theorem trapEntry_mem (i : Bool) (c : BitVec 31) (v e : Word) (s : State) :
    (trapEntry i c v e s).mem = s.mem := rfl
@[simp] theorem trapEntry_stale (i : Bool) (c : BitVec 31) (v e : Word) (s : State) :
    (trapEntry i c v e s).stale = s.stale := rfl
@[simp] theorem trapEntry_mtime (i : Bool) (c : BitVec 31) (v e : Word) (s : State) :
    (trapEntry i c v e s).mtime = s.mtime := rfl
@[simp] theorem trapEntry_mtimecmp (i : Bool) (c : BitVec 31) (v e : Word) (s : State) :
    (trapEntry i c v e s).mtimecmp = s.mtimecmp := rfl
@[simp] theorem trapEntry_msip (i : Bool) (c : BitVec 31) (v e : Word) (s : State) :
    (trapEntry i c v e s).msip = s.msip := rfl
@[simp] theorem trapEntry_irq (i : Bool) (c : BitVec 31) (v e : Word) (s : State) :
    (trapEntry i c v e s).irq = s.irq := rfl
@[simp] theorem trapEntry_dm (i : Bool) (c : BitVec 31) (v e : Word) (s : State) :
    (trapEntry i c v e s).dm = s.dm := rfl
@[simp] theorem trapEntry_inbox (i : Bool) (c : BitVec 31) (v e : Word) (s : State) :
    (trapEntry i c v e s).inbox = s.inbox := rfl
@[simp] theorem trapEntry_devLog (i : Bool) (c : BitVec 31) (v e : Word) (s : State) :
    (trapEntry i c v e s).devLog = s.devLog := rfl
@[simp] theorem trapEntry_free (i : Bool) (c : BitVec 31) (v e : Word) (s : State) :
    (trapEntry i c v e s).free = s.free := rfl

/-! ### `debugException` -/

@[simp] theorem debugException_cfg (s : State) : (debugException s).cfg = s.cfg := rfl
@[simp] theorem debugException_x (s : State) : (debugException s).x = s.x := rfl
@[simp] theorem debugException_pc (s : State) : (debugException s).pc = s.pc := rfl
@[simp] theorem debugException_mode (s : State) : (debugException s).mode = s.mode := rfl
@[simp] theorem debugException_mstatus (s : State) : (debugException s).mstatus = s.mstatus := rfl
@[simp] theorem debugException_mie (s : State) : (debugException s).mie = s.mie := rfl
@[simp] theorem debugException_mtvec (s : State) : (debugException s).mtvec = s.mtvec := rfl
@[simp] theorem debugException_mepc (s : State) : (debugException s).mepc = s.mepc := rfl
@[simp] theorem debugException_mcause (s : State) : (debugException s).mcause = s.mcause := rfl
@[simp] theorem debugException_mtval (s : State) : (debugException s).mtval = s.mtval := rfl
@[simp] theorem debugException_dcsr (s : State) : (debugException s).dcsr = s.dcsr := rfl
@[simp] theorem debugException_dpc (s : State) : (debugException s).dpc = s.dpc := rfl
@[simp] theorem debugException_reservation (s : State) : (debugException s).reservation = s.reservation := rfl
@[simp] theorem debugException_scLoop (s : State) : (debugException s).scLoop = s.scLoop := rfl
@[simp] theorem debugException_scParked (s : State) : (debugException s).scParked = s.scParked := rfl
@[simp] theorem debugException_waiting (s : State) : (debugException s).waiting = s.waiting := rfl
@[simp] theorem debugException_stepping (s : State) : (debugException s).stepping = s.stepping := rfl
@[simp] theorem debugException_inReset (s : State) : (debugException s).inReset = s.inReset := rfl
@[simp] theorem debugException_mem (s : State) : (debugException s).mem = s.mem := rfl
@[simp] theorem debugException_stale (s : State) : (debugException s).stale = s.stale := rfl
@[simp] theorem debugException_mtime (s : State) : (debugException s).mtime = s.mtime := rfl
@[simp] theorem debugException_mtimecmp (s : State) : (debugException s).mtimecmp = s.mtimecmp := rfl
@[simp] theorem debugException_msip (s : State) : (debugException s).msip = s.msip := rfl
@[simp] theorem debugException_irq (s : State) : (debugException s).irq = s.irq := rfl
@[simp] theorem debugException_dm (s : State) :
    (debugException s).dm = { s.dm.setError 3 with pbIndex := none } := rfl
@[simp] theorem debugException_inbox (s : State) : (debugException s).inbox = s.inbox := rfl
@[simp] theorem debugException_devLog (s : State) : (debugException s).devLog = s.devLog := rfl
@[simp] theorem debugException_free (s : State) : (debugException s).free = s.free := rfl

/-! ### `trapReturn` -/

@[simp] theorem trapReturn_cfg (s : State) : (trapReturn s).cfg = s.cfg := rfl
@[simp] theorem trapReturn_x (s : State) : (trapReturn s).x = s.x := rfl
@[simp] theorem trapReturn_pc (s : State) : (trapReturn s).pc = s.mepc := rfl
@[simp] theorem trapReturn_mode (s : State) : (trapReturn s).mode = s.mode := rfl
@[simp] theorem trapReturn_mstatus (s : State) : (trapReturn s).mstatus = mstatusWord s.mstatusMPIE true := rfl
@[simp] theorem trapReturn_mie (s : State) : (trapReturn s).mie = s.mie := rfl
@[simp] theorem trapReturn_mtvec (s : State) : (trapReturn s).mtvec = s.mtvec := rfl
@[simp] theorem trapReturn_mepc (s : State) : (trapReturn s).mepc = s.mepc := rfl
@[simp] theorem trapReturn_mcause (s : State) : (trapReturn s).mcause = s.mcause := rfl
@[simp] theorem trapReturn_mtval (s : State) : (trapReturn s).mtval = s.mtval := rfl
@[simp] theorem trapReturn_dcsr (s : State) : (trapReturn s).dcsr = s.dcsr := rfl
@[simp] theorem trapReturn_dpc (s : State) : (trapReturn s).dpc = s.dpc := rfl
@[simp] theorem trapReturn_reservation (s : State) :
    (trapReturn s).reservation = keepReservation (Config.mretKeepsReservation s.free) s.reservation := rfl
@[simp] theorem trapReturn_scLoop (s : State) :
    (trapReturn s).scLoop = s.parkedLoop s.mepc := rfl
@[simp] theorem trapReturn_scParked (s : State) :
    (trapReturn s).scParked = s.parkedRest s.mepc := rfl
@[simp] theorem trapReturn_waiting (s : State) : (trapReturn s).waiting = s.waiting := rfl
@[simp] theorem trapReturn_stepping (s : State) : (trapReturn s).stepping = s.stepping := rfl
@[simp] theorem trapReturn_inReset (s : State) : (trapReturn s).inReset = s.inReset := rfl
@[simp] theorem trapReturn_mem (s : State) : (trapReturn s).mem = s.mem := rfl
@[simp] theorem trapReturn_stale (s : State) : (trapReturn s).stale = s.stale := rfl
@[simp] theorem trapReturn_mtime (s : State) : (trapReturn s).mtime = s.mtime := rfl
@[simp] theorem trapReturn_mtimecmp (s : State) : (trapReturn s).mtimecmp = s.mtimecmp := rfl
@[simp] theorem trapReturn_msip (s : State) : (trapReturn s).msip = s.msip := rfl
@[simp] theorem trapReturn_irq (s : State) : (trapReturn s).irq = s.irq := rfl
@[simp] theorem trapReturn_dm (s : State) : (trapReturn s).dm = s.dm := rfl
@[simp] theorem trapReturn_inbox (s : State) : (trapReturn s).inbox = s.inbox := rfl
@[simp] theorem trapReturn_devLog (s : State) : (trapReturn s).devLog = s.devLog := rfl
@[simp] theorem trapReturn_free (s : State) : (trapReturn s).free = s.free := rfl

/-! ### `enterDebug` -/

@[simp] theorem enterDebug_cfg (c : BitVec 3) (p : Word) (s : State) : (enterDebug c p s).cfg = s.cfg := rfl
@[simp] theorem enterDebug_x (c : BitVec 3) (p : Word) (s : State) : (enterDebug c p s).x = s.x := rfl
@[simp] theorem enterDebug_pc (c : BitVec 3) (p : Word) (s : State) : (enterDebug c p s).pc = Config.debugPc s.free &&& 0xFFFFFFFC#32 := rfl
@[simp] theorem enterDebug_mode (c : BitVec 3) (p : Word) (s : State) : (enterDebug c p s).mode = .D := rfl
@[simp] theorem enterDebug_mstatus (c : BitVec 3) (p : Word) (s : State) :
    (enterDebug c p s).mstatus = s.mstatus := rfl
@[simp] theorem enterDebug_mie (c : BitVec 3) (p : Word) (s : State) : (enterDebug c p s).mie = s.mie := rfl
@[simp] theorem enterDebug_mtvec (c : BitVec 3) (p : Word) (s : State) : (enterDebug c p s).mtvec = s.mtvec := rfl
@[simp] theorem enterDebug_mepc (c : BitVec 3) (p : Word) (s : State) : (enterDebug c p s).mepc = s.mepc := rfl
@[simp] theorem enterDebug_mcause (c : BitVec 3) (p : Word) (s : State) : (enterDebug c p s).mcause = s.mcause := rfl
@[simp] theorem enterDebug_mtval (c : BitVec 3) (p : Word) (s : State) : (enterDebug c p s).mtval = s.mtval := rfl
@[simp] theorem enterDebug_dcsr (c : BitVec 3) (p : Word) (s : State) :
    (enterDebug c p s).dcsr = dcsrWithCause s.dcsr c := rfl
@[simp] theorem enterDebug_dpc (c : BitVec 3) (p : Word) (s : State) :
    (enterDebug c p s).dpc = p &&& 0xFFFFFFFC#32 := rfl
@[simp] theorem enterDebug_reservation (c : BitVec 3) (p : Word) (s : State) :
    (enterDebug c p s).reservation = none := rfl
@[simp] theorem enterDebug_scLoop (c : BitVec 3) (p : Word) (s : State) :
    (enterDebug c p s).scLoop = none := rfl
@[simp] theorem enterDebug_scParked (c : BitVec 3) (p : Word) (s : State) :
    (enterDebug c p s).scParked = s.parkLoop (p &&& 0xFFFFFFFC#32) := rfl
@[simp] theorem enterDebug_waiting (c : BitVec 3) (p : Word) (s : State) : (enterDebug c p s).waiting = false := rfl
@[simp] theorem enterDebug_stepping (c : BitVec 3) (p : Word) (s : State) : (enterDebug c p s).stepping = false := rfl
@[simp] theorem enterDebug_inReset (c : BitVec 3) (p : Word) (s : State) :
    (enterDebug c p s).inReset = s.inReset := rfl
@[simp] theorem enterDebug_mem (c : BitVec 3) (p : Word) (s : State) : (enterDebug c p s).mem = s.mem := rfl
@[simp] theorem enterDebug_stale (c : BitVec 3) (p : Word) (s : State) : (enterDebug c p s).stale = s.stale := rfl
@[simp] theorem enterDebug_mtime (c : BitVec 3) (p : Word) (s : State) : (enterDebug c p s).mtime = s.mtime := rfl
@[simp] theorem enterDebug_mtimecmp (c : BitVec 3) (p : Word) (s : State) :
    (enterDebug c p s).mtimecmp = s.mtimecmp := rfl
@[simp] theorem enterDebug_msip (c : BitVec 3) (p : Word) (s : State) : (enterDebug c p s).msip = s.msip := rfl
@[simp] theorem enterDebug_irq (c : BitVec 3) (p : Word) (s : State) : (enterDebug c p s).irq = s.irq := rfl
@[simp] theorem enterDebug_dm (c : BitVec 3) (p : Word) (s : State) :
    (enterDebug c p s).dm = { s.dm with pbIndex := none } := rfl
@[simp] theorem enterDebug_inbox (c : BitVec 3) (p : Word) (s : State) : (enterDebug c p s).inbox = s.inbox := rfl
@[simp] theorem enterDebug_devLog (c : BitVec 3) (p : Word) (s : State) : (enterDebug c p s).devLog = s.devLog := rfl
@[simp] theorem enterDebug_free (c : BitVec 3) (p : Word) (s : State) : (enterDebug c p s).free = s.free := rfl

/-! ### `leaveDebug` -/

@[simp] theorem leaveDebug_cfg (s : State) : (leaveDebug s).cfg = s.cfg := rfl
@[simp] theorem leaveDebug_x (s : State) : (leaveDebug s).x = s.x := rfl
@[simp] theorem leaveDebug_pc (s : State) : (leaveDebug s).pc = s.dpc := rfl
@[simp] theorem leaveDebug_mode (s : State) : (leaveDebug s).mode = .M := rfl
@[simp] theorem leaveDebug_mstatus (s : State) : (leaveDebug s).mstatus = s.mstatus := rfl
@[simp] theorem leaveDebug_mie (s : State) : (leaveDebug s).mie = s.mie := rfl
@[simp] theorem leaveDebug_mtvec (s : State) : (leaveDebug s).mtvec = s.mtvec := rfl
@[simp] theorem leaveDebug_mepc (s : State) : (leaveDebug s).mepc = s.mepc := rfl
@[simp] theorem leaveDebug_mcause (s : State) : (leaveDebug s).mcause = s.mcause := rfl
@[simp] theorem leaveDebug_mtval (s : State) : (leaveDebug s).mtval = s.mtval := rfl
@[simp] theorem leaveDebug_dcsr (s : State) : (leaveDebug s).dcsr = s.dcsr := rfl
@[simp] theorem leaveDebug_dpc (s : State) : (leaveDebug s).dpc = s.dpc := rfl
@[simp] theorem leaveDebug_reservation (s : State) : (leaveDebug s).reservation = s.reservation := rfl
@[simp] theorem leaveDebug_scLoop (s : State) : (leaveDebug s).scLoop = s.parkedLoop s.dpc := rfl
@[simp] theorem leaveDebug_scParked (s : State) : (leaveDebug s).scParked = s.parkedRest s.dpc := rfl
@[simp] theorem leaveDebug_waiting (s : State) : (leaveDebug s).waiting = s.waiting := rfl
@[simp] theorem leaveDebug_stepping (s : State) : (leaveDebug s).stepping = s.dcsrStep := rfl
@[simp] theorem leaveDebug_inReset (s : State) : (leaveDebug s).inReset = s.inReset := rfl
@[simp] theorem leaveDebug_mem (s : State) : (leaveDebug s).mem = s.mem := rfl
@[simp] theorem leaveDebug_stale (s : State) : (leaveDebug s).stale = s.stale := rfl
@[simp] theorem leaveDebug_mtime (s : State) : (leaveDebug s).mtime = s.mtime := rfl
@[simp] theorem leaveDebug_mtimecmp (s : State) : (leaveDebug s).mtimecmp = s.mtimecmp := rfl
@[simp] theorem leaveDebug_msip (s : State) : (leaveDebug s).msip = s.msip := rfl
@[simp] theorem leaveDebug_irq (s : State) : (leaveDebug s).irq = s.irq := rfl
@[simp] theorem leaveDebug_dm (s : State) : (leaveDebug s).dm = { s.dm with pbIndex := none } := rfl
@[simp] theorem leaveDebug_inbox (s : State) : (leaveDebug s).inbox = s.inbox := rfl
@[simp] theorem leaveDebug_devLog (s : State) : (leaveDebug s).devLog = s.devLog := rfl
@[simp] theorem leaveDebug_free (s : State) : (leaveDebug s).free = s.free := rfl

/-! ### `timerStore` -/

@[simp] theorem timerStore_cfg (s : State) (r : TimerReg) (v : Word) : (timerStore s r v).cfg = s.cfg := rfl
@[simp] theorem timerStore_x (s : State) (r : TimerReg) (v : Word) : (timerStore s r v).x = s.x := rfl
@[simp] theorem timerStore_pc (s : State) (r : TimerReg) (v : Word) : (timerStore s r v).pc = s.pc := rfl
@[simp] theorem timerStore_mode (s : State) (r : TimerReg) (v : Word) : (timerStore s r v).mode = s.mode := rfl
@[simp] theorem timerStore_mstatus (s : State) (r : TimerReg) (v : Word) :
    (timerStore s r v).mstatus = s.mstatus := rfl
@[simp] theorem timerStore_mie (s : State) (r : TimerReg) (v : Word) : (timerStore s r v).mie = s.mie := rfl
@[simp] theorem timerStore_mtvec (s : State) (r : TimerReg) (v : Word) : (timerStore s r v).mtvec = s.mtvec := rfl
@[simp] theorem timerStore_mepc (s : State) (r : TimerReg) (v : Word) : (timerStore s r v).mepc = s.mepc := rfl
@[simp] theorem timerStore_mcause (s : State) (r : TimerReg) (v : Word) : (timerStore s r v).mcause = s.mcause := rfl
@[simp] theorem timerStore_mtval (s : State) (r : TimerReg) (v : Word) : (timerStore s r v).mtval = s.mtval := rfl
@[simp] theorem timerStore_dcsr (s : State) (r : TimerReg) (v : Word) : (timerStore s r v).dcsr = s.dcsr := rfl
@[simp] theorem timerStore_dpc (s : State) (r : TimerReg) (v : Word) : (timerStore s r v).dpc = s.dpc := rfl
@[simp] theorem timerStore_reservation (s : State) (r : TimerReg) (v : Word) :
    (timerStore s r v).reservation = s.reservation := rfl
@[simp] theorem timerStore_scLoop (s : State) (r : TimerReg) (v : Word) :
    (timerStore s r v).scLoop = s.scLoop := rfl
@[simp] theorem timerStore_scParked (s : State) (r : TimerReg) (v : Word) :
    (timerStore s r v).scParked = s.scParked := rfl
@[simp] theorem timerStore_waiting (s : State) (r : TimerReg) (v : Word) :
    (timerStore s r v).waiting = s.waiting := rfl
@[simp] theorem timerStore_stepping (s : State) (r : TimerReg) (v : Word) :
    (timerStore s r v).stepping = s.stepping := rfl
@[simp] theorem timerStore_inReset (s : State) (r : TimerReg) (v : Word) :
    (timerStore s r v).inReset = s.inReset := rfl
@[simp] theorem timerStore_mem (s : State) (r : TimerReg) (v : Word) : (timerStore s r v).mem = s.mem := rfl
@[simp] theorem timerStore_stale (s : State) (r : TimerReg) (v : Word) : (timerStore s r v).stale = s.stale := rfl
@[simp] theorem timerStore_irq (s : State) (r : TimerReg) (v : Word) : (timerStore s r v).irq = s.irq := rfl
@[simp] theorem timerStore_dm (s : State) (r : TimerReg) (v : Word) : (timerStore s r v).dm = s.dm := rfl
@[simp] theorem timerStore_inbox (s : State) (r : TimerReg) (v : Word) : (timerStore s r v).inbox = s.inbox := rfl
@[simp] theorem timerStore_devLog (s : State) (r : TimerReg) (v : Word) : (timerStore s r v).devLog = s.devLog := rfl
@[simp] theorem timerStore_free (s : State) (r : TimerReg) (v : Word) : (timerStore s r v).free = s.free := rfl

/-! ### `setTimer` -/

@[simp] theorem setTimer_cfg (c : TimerContents) (s : State) : (setTimer c s).cfg = s.cfg := rfl
@[simp] theorem setTimer_x (c : TimerContents) (s : State) : (setTimer c s).x = s.x := rfl
@[simp] theorem setTimer_pc (c : TimerContents) (s : State) : (setTimer c s).pc = s.pc := rfl
@[simp] theorem setTimer_mode (c : TimerContents) (s : State) : (setTimer c s).mode = s.mode := rfl
@[simp] theorem setTimer_mstatus (c : TimerContents) (s : State) : (setTimer c s).mstatus = s.mstatus := rfl
@[simp] theorem setTimer_mie (c : TimerContents) (s : State) : (setTimer c s).mie = s.mie := rfl
@[simp] theorem setTimer_mtvec (c : TimerContents) (s : State) : (setTimer c s).mtvec = s.mtvec := rfl
@[simp] theorem setTimer_mepc (c : TimerContents) (s : State) : (setTimer c s).mepc = s.mepc := rfl
@[simp] theorem setTimer_mcause (c : TimerContents) (s : State) : (setTimer c s).mcause = s.mcause := rfl
@[simp] theorem setTimer_mtval (c : TimerContents) (s : State) : (setTimer c s).mtval = s.mtval := rfl
@[simp] theorem setTimer_dcsr (c : TimerContents) (s : State) : (setTimer c s).dcsr = s.dcsr := rfl
@[simp] theorem setTimer_dpc (c : TimerContents) (s : State) : (setTimer c s).dpc = s.dpc := rfl
@[simp] theorem setTimer_reservation (c : TimerContents) (s : State) :
    (setTimer c s).reservation = s.reservation := rfl
@[simp] theorem setTimer_scLoop (c : TimerContents) (s : State) :
    (setTimer c s).scLoop = s.scLoop := rfl
@[simp] theorem setTimer_scParked (c : TimerContents) (s : State) :
    (setTimer c s).scParked = s.scParked := rfl
@[simp] theorem setTimer_waiting (c : TimerContents) (s : State) : (setTimer c s).waiting = s.waiting := rfl
@[simp] theorem setTimer_stepping (c : TimerContents) (s : State) : (setTimer c s).stepping = s.stepping := rfl
@[simp] theorem setTimer_inReset (c : TimerContents) (s : State) : (setTimer c s).inReset = s.inReset := rfl
@[simp] theorem setTimer_mem (c : TimerContents) (s : State) : (setTimer c s).mem = s.mem := rfl
@[simp] theorem setTimer_stale (c : TimerContents) (s : State) : (setTimer c s).stale = s.stale := rfl
@[simp] theorem setTimer_mtime (c : TimerContents) (s : State) : (setTimer c s).mtime = c.mtime := rfl
@[simp] theorem setTimer_mtimecmp (c : TimerContents) (s : State) : (setTimer c s).mtimecmp = c.mtimecmp := rfl
@[simp] theorem setTimer_msip (c : TimerContents) (s : State) : (setTimer c s).msip = c.msip := rfl
@[simp] theorem setTimer_irq (c : TimerContents) (s : State) : (setTimer c s).irq = s.irq := rfl
@[simp] theorem setTimer_dm (c : TimerContents) (s : State) : (setTimer c s).dm = s.dm := rfl
@[simp] theorem setTimer_inbox (c : TimerContents) (s : State) : (setTimer c s).inbox = s.inbox := rfl
@[simp] theorem setTimer_devLog (c : TimerContents) (s : State) : (setTimer c s).devLog = s.devLog := rfl
@[simp] theorem setTimer_free (c : TimerContents) (s : State) : (setTimer c s).free = s.free := rfl

/-! ### `writeStorage` -/

@[simp] theorem writeStorage_cfg (z : AccessSize) (c : Nat) (v : Word) (s : State) :
    (writeStorage z c v s).cfg = s.cfg := rfl
@[simp] theorem writeStorage_x (z : AccessSize) (c : Nat) (v : Word) (s : State) :
    (writeStorage z c v s).x = s.x := rfl
@[simp] theorem writeStorage_pc (z : AccessSize) (c : Nat) (v : Word) (s : State) :
    (writeStorage z c v s).pc = s.pc := rfl
@[simp] theorem writeStorage_mode (z : AccessSize) (c : Nat) (v : Word) (s : State) :
    (writeStorage z c v s).mode = s.mode := rfl
@[simp] theorem writeStorage_mstatus (z : AccessSize) (c : Nat) (v : Word) (s : State) :
    (writeStorage z c v s).mstatus = s.mstatus := rfl
@[simp] theorem writeStorage_mie (z : AccessSize) (c : Nat) (v : Word) (s : State) :
    (writeStorage z c v s).mie = s.mie := rfl
@[simp] theorem writeStorage_mtvec (z : AccessSize) (c : Nat) (v : Word) (s : State) :
    (writeStorage z c v s).mtvec = s.mtvec := rfl
@[simp] theorem writeStorage_mepc (z : AccessSize) (c : Nat) (v : Word) (s : State) :
    (writeStorage z c v s).mepc = s.mepc := rfl
@[simp] theorem writeStorage_mcause (z : AccessSize) (c : Nat) (v : Word) (s : State) :
    (writeStorage z c v s).mcause = s.mcause := rfl
@[simp] theorem writeStorage_mtval (z : AccessSize) (c : Nat) (v : Word) (s : State) :
    (writeStorage z c v s).mtval = s.mtval := rfl
@[simp] theorem writeStorage_dcsr (z : AccessSize) (c : Nat) (v : Word) (s : State) :
    (writeStorage z c v s).dcsr = s.dcsr := rfl
@[simp] theorem writeStorage_dpc (z : AccessSize) (c : Nat) (v : Word) (s : State) :
    (writeStorage z c v s).dpc = s.dpc := rfl
@[simp] theorem writeStorage_reservation (z : AccessSize) (c : Nat) (v : Word) (s : State) :
    (writeStorage z c v s).reservation = s.reservation := rfl
@[simp] theorem writeStorage_scLoop (z : AccessSize) (c : Nat) (v : Word) (s : State) :
    (writeStorage z c v s).scLoop = s.scLoop := rfl
@[simp] theorem writeStorage_scParked (z : AccessSize) (c : Nat) (v : Word) (s : State) :
    (writeStorage z c v s).scParked = s.scParked := rfl
@[simp] theorem writeStorage_waiting (z : AccessSize) (c : Nat) (v : Word) (s : State) :
    (writeStorage z c v s).waiting = s.waiting := rfl
@[simp] theorem writeStorage_stepping (z : AccessSize) (c : Nat) (v : Word) (s : State) :
    (writeStorage z c v s).stepping = s.stepping := rfl
@[simp] theorem writeStorage_inReset (z : AccessSize) (c : Nat) (v : Word) (s : State) :
    (writeStorage z c v s).inReset = s.inReset := rfl
@[simp] theorem writeStorage_mem (z : AccessSize) (c : Nat) (v : Word) (s : State) :
    (writeStorage z c v s).mem = Memory.store s.mem z c v := rfl
@[simp] theorem writeStorage_stale (z : AccessSize) (c : Nat) (v : Word) (s : State) :
    (writeStorage z c v s).stale =
      (wordsOver c z.bytes).map (fun w => (w, Memory.load s.mem .word w)) ++ s.stale := rfl
@[simp] theorem writeStorage_mtime (z : AccessSize) (c : Nat) (v : Word) (s : State) :
    (writeStorage z c v s).mtime = s.mtime := rfl
@[simp] theorem writeStorage_mtimecmp (z : AccessSize) (c : Nat) (v : Word) (s : State) :
    (writeStorage z c v s).mtimecmp = s.mtimecmp := rfl
@[simp] theorem writeStorage_msip (z : AccessSize) (c : Nat) (v : Word) (s : State) :
    (writeStorage z c v s).msip = s.msip := rfl
@[simp] theorem writeStorage_irq (z : AccessSize) (c : Nat) (v : Word) (s : State) :
    (writeStorage z c v s).irq = s.irq := rfl
@[simp] theorem writeStorage_dm (z : AccessSize) (c : Nat) (v : Word) (s : State) :
    (writeStorage z c v s).dm = s.dm := rfl
@[simp] theorem writeStorage_inbox (z : AccessSize) (c : Nat) (v : Word) (s : State) :
    (writeStorage z c v s).inbox = s.inbox := rfl
@[simp] theorem writeStorage_devLog (z : AccessSize) (c : Nat) (v : Word) (s : State) :
    (writeStorage z c v s).devLog = s.devLog := rfl
@[simp] theorem writeStorage_free (z : AccessSize) (c : Nat) (v : Word) (s : State) :
    (writeStorage z c v s).free = s.free := rfl

/-! ### `logDevice` -/

@[simp] theorem logDevice_cfg (e : DeviceAccess) (s : State) : (logDevice e s).cfg = s.cfg := rfl
@[simp] theorem logDevice_x (e : DeviceAccess) (s : State) : (logDevice e s).x = s.x := rfl
@[simp] theorem logDevice_pc (e : DeviceAccess) (s : State) : (logDevice e s).pc = s.pc := rfl
@[simp] theorem logDevice_mode (e : DeviceAccess) (s : State) : (logDevice e s).mode = s.mode := rfl
@[simp] theorem logDevice_mstatus (e : DeviceAccess) (s : State) : (logDevice e s).mstatus = s.mstatus := rfl
@[simp] theorem logDevice_mie (e : DeviceAccess) (s : State) : (logDevice e s).mie = s.mie := rfl
@[simp] theorem logDevice_mtvec (e : DeviceAccess) (s : State) : (logDevice e s).mtvec = s.mtvec := rfl
@[simp] theorem logDevice_mepc (e : DeviceAccess) (s : State) : (logDevice e s).mepc = s.mepc := rfl
@[simp] theorem logDevice_mcause (e : DeviceAccess) (s : State) : (logDevice e s).mcause = s.mcause := rfl
@[simp] theorem logDevice_mtval (e : DeviceAccess) (s : State) : (logDevice e s).mtval = s.mtval := rfl
@[simp] theorem logDevice_dcsr (e : DeviceAccess) (s : State) : (logDevice e s).dcsr = s.dcsr := rfl
@[simp] theorem logDevice_dpc (e : DeviceAccess) (s : State) : (logDevice e s).dpc = s.dpc := rfl
@[simp] theorem logDevice_reservation (e : DeviceAccess) (s : State) :
    (logDevice e s).reservation = s.reservation := rfl
@[simp] theorem logDevice_scLoop (e : DeviceAccess) (s : State) :
    (logDevice e s).scLoop = s.scLoop := rfl
@[simp] theorem logDevice_scParked (e : DeviceAccess) (s : State) :
    (logDevice e s).scParked = s.scParked := rfl
@[simp] theorem logDevice_waiting (e : DeviceAccess) (s : State) : (logDevice e s).waiting = s.waiting := rfl
@[simp] theorem logDevice_stepping (e : DeviceAccess) (s : State) : (logDevice e s).stepping = s.stepping := rfl
@[simp] theorem logDevice_inReset (e : DeviceAccess) (s : State) : (logDevice e s).inReset = s.inReset := rfl
@[simp] theorem logDevice_mem (e : DeviceAccess) (s : State) : (logDevice e s).mem = s.mem := rfl
@[simp] theorem logDevice_stale (e : DeviceAccess) (s : State) : (logDevice e s).stale = s.stale := rfl
@[simp] theorem logDevice_mtime (e : DeviceAccess) (s : State) : (logDevice e s).mtime = s.mtime := rfl
@[simp] theorem logDevice_mtimecmp (e : DeviceAccess) (s : State) : (logDevice e s).mtimecmp = s.mtimecmp := rfl
@[simp] theorem logDevice_msip (e : DeviceAccess) (s : State) : (logDevice e s).msip = s.msip := rfl
@[simp] theorem logDevice_irq (e : DeviceAccess) (s : State) : (logDevice e s).irq = s.irq := rfl
@[simp] theorem logDevice_dm (e : DeviceAccess) (s : State) : (logDevice e s).dm = s.dm := rfl
@[simp] theorem logDevice_inbox (e : DeviceAccess) (s : State) : (logDevice e s).inbox = s.inbox := rfl
@[simp] theorem logDevice_devLog (e : DeviceAccess) (s : State) : (logDevice e s).devLog = e :: s.devLog := rfl
@[simp] theorem logDevice_free (e : DeviceAccess) (s : State) : (logDevice e s).free = s.free := rfl

/-! ### `breakReservation` -/

@[simp] theorem breakReservation_cfg (a : Word) (s : State) : (breakReservation a s).cfg = s.cfg := rfl
@[simp] theorem breakReservation_x (a : Word) (s : State) : (breakReservation a s).x = s.x := rfl
@[simp] theorem breakReservation_pc (a : Word) (s : State) : (breakReservation a s).pc = s.pc := rfl
@[simp] theorem breakReservation_mode (a : Word) (s : State) : (breakReservation a s).mode = s.mode := rfl
@[simp] theorem breakReservation_mstatus (a : Word) (s : State) : (breakReservation a s).mstatus = s.mstatus := rfl
@[simp] theorem breakReservation_mie (a : Word) (s : State) : (breakReservation a s).mie = s.mie := rfl
@[simp] theorem breakReservation_mtvec (a : Word) (s : State) : (breakReservation a s).mtvec = s.mtvec := rfl
@[simp] theorem breakReservation_mepc (a : Word) (s : State) : (breakReservation a s).mepc = s.mepc := rfl
@[simp] theorem breakReservation_mcause (a : Word) (s : State) : (breakReservation a s).mcause = s.mcause := rfl
@[simp] theorem breakReservation_mtval (a : Word) (s : State) : (breakReservation a s).mtval = s.mtval := rfl
@[simp] theorem breakReservation_dcsr (a : Word) (s : State) : (breakReservation a s).dcsr = s.dcsr := rfl
@[simp] theorem breakReservation_dpc (a : Word) (s : State) : (breakReservation a s).dpc = s.dpc := rfl
@[simp] theorem breakReservation_scLoop (a : Word) (s : State) : (breakReservation a s).scLoop = s.scLoop := rfl
@[simp] theorem breakReservation_scParked (a : Word) (s : State) : (breakReservation a s).scParked = s.scParked := rfl
@[simp] theorem breakReservation_waiting (a : Word) (s : State) : (breakReservation a s).waiting = s.waiting := rfl
@[simp] theorem breakReservation_stepping (a : Word) (s : State) : (breakReservation a s).stepping = s.stepping := rfl
@[simp] theorem breakReservation_inReset (a : Word) (s : State) : (breakReservation a s).inReset = s.inReset := rfl
@[simp] theorem breakReservation_mem (a : Word) (s : State) : (breakReservation a s).mem = s.mem := rfl
@[simp] theorem breakReservation_stale (a : Word) (s : State) : (breakReservation a s).stale = s.stale := rfl
@[simp] theorem breakReservation_mtime (a : Word) (s : State) : (breakReservation a s).mtime = s.mtime := rfl
@[simp] theorem breakReservation_mtimecmp (a : Word) (s : State) : (breakReservation a s).mtimecmp = s.mtimecmp := rfl
@[simp] theorem breakReservation_msip (a : Word) (s : State) : (breakReservation a s).msip = s.msip := rfl
@[simp] theorem breakReservation_irq (a : Word) (s : State) : (breakReservation a s).irq = s.irq := rfl
@[simp] theorem breakReservation_dm (a : Word) (s : State) : (breakReservation a s).dm = s.dm := rfl
@[simp] theorem breakReservation_inbox (a : Word) (s : State) : (breakReservation a s).inbox = s.inbox := rfl
@[simp] theorem breakReservation_devLog (a : Word) (s : State) : (breakReservation a s).devLog = s.devLog := rfl
@[simp] theorem breakReservation_free (a : Word) (s : State) : (breakReservation a s).free = s.free := rfl

/-! ### `debugTransfer` -/

@[simp] theorem debugTransfer_cfg (s : State) : (debugTransfer s).cfg = s.cfg := rfl
@[simp] theorem debugTransfer_x (s : State) : (debugTransfer s).x = s.x := rfl
@[simp] theorem debugTransfer_pc (s : State) : (debugTransfer s).pc = s.pc := rfl
@[simp] theorem debugTransfer_mode (s : State) : (debugTransfer s).mode = s.mode := rfl
@[simp] theorem debugTransfer_mstatus (s : State) : (debugTransfer s).mstatus = s.mstatus := rfl
@[simp] theorem debugTransfer_mie (s : State) : (debugTransfer s).mie = s.mie := rfl
@[simp] theorem debugTransfer_mtvec (s : State) : (debugTransfer s).mtvec = s.mtvec := rfl
@[simp] theorem debugTransfer_mepc (s : State) : (debugTransfer s).mepc = s.mepc := rfl
@[simp] theorem debugTransfer_mcause (s : State) : (debugTransfer s).mcause = s.mcause := rfl
@[simp] theorem debugTransfer_mtval (s : State) : (debugTransfer s).mtval = s.mtval := rfl
@[simp] theorem debugTransfer_dcsr (s : State) : (debugTransfer s).dcsr = s.dcsr := rfl
@[simp] theorem debugTransfer_dpc (s : State) : (debugTransfer s).dpc = s.dpc := rfl
@[simp] theorem debugTransfer_reservation (s : State) : (debugTransfer s).reservation = s.reservation := rfl
@[simp] theorem debugTransfer_scLoop (s : State) : (debugTransfer s).scLoop = s.scLoop := rfl
@[simp] theorem debugTransfer_scParked (s : State) : (debugTransfer s).scParked = s.scParked := rfl
@[simp] theorem debugTransfer_waiting (s : State) : (debugTransfer s).waiting = s.waiting := rfl
@[simp] theorem debugTransfer_stepping (s : State) : (debugTransfer s).stepping = s.stepping := rfl
@[simp] theorem debugTransfer_inReset (s : State) : (debugTransfer s).inReset = s.inReset := rfl
@[simp] theorem debugTransfer_mem (s : State) : (debugTransfer s).mem = s.mem := rfl
@[simp] theorem debugTransfer_stale (s : State) : (debugTransfer s).stale = s.stale := rfl
@[simp] theorem debugTransfer_mtime (s : State) : (debugTransfer s).mtime = s.mtime := rfl
@[simp] theorem debugTransfer_mtimecmp (s : State) : (debugTransfer s).mtimecmp = s.mtimecmp := rfl
@[simp] theorem debugTransfer_msip (s : State) : (debugTransfer s).msip = s.msip := rfl
@[simp] theorem debugTransfer_irq (s : State) : (debugTransfer s).irq = s.irq := rfl
@[simp] theorem debugTransfer_dm (s : State) :
    (debugTransfer s).dm = { s.dm with pbIndex := s.dm.pbIndex.map (fun _ => Config.debugTarget s.free) } := rfl
@[simp] theorem debugTransfer_inbox (s : State) : (debugTransfer s).inbox = s.inbox := rfl
@[simp] theorem debugTransfer_devLog (s : State) : (debugTransfer s).devLog = s.devLog := rfl
@[simp] theorem debugTransfer_free (s : State) : (debugTransfer s).free = s.free := rfl

/-! ### `csrWrite` -/

@[simp] theorem csrWrite_cfg (c : Csr) (v : Word) (s : State) : (csrWrite c v s).cfg = s.cfg := rfl
@[simp] theorem csrWrite_x (c : Csr) (v : Word) (s : State) : (csrWrite c v s).x = s.x := rfl
@[simp] theorem csrWrite_pc (c : Csr) (v : Word) (s : State) : (csrWrite c v s).pc = s.pc := rfl
@[simp] theorem csrWrite_mode (c : Csr) (v : Word) (s : State) : (csrWrite c v s).mode = s.mode := rfl
@[simp] theorem csrWrite_mstatus (c : Csr) (v : Word) (s : State) :
    (csrWrite c v s).mstatus = if c = .mstatus then mstatusWord (v.getLsbD 3) (v.getLsbD 7) else s.mstatus := rfl
@[simp] theorem csrWrite_mie (c : Csr) (v : Word) (s : State) :
    (csrWrite c v s).mie = if c = .mie then v &&& 0xFFFF0088#32 else s.mie := rfl
@[simp] theorem csrWrite_mtvec (c : Csr) (v : Word) (s : State) :
    (csrWrite c v s).mtvec = if c = .mtvec then v &&& mtvecMask s.cfg else s.mtvec := rfl
@[simp] theorem csrWrite_mepc (c : Csr) (v : Word) (s : State) :
    (csrWrite c v s).mepc = if c = .mepc then v &&& 0xFFFFFFFC#32 else s.mepc := rfl
@[simp] theorem csrWrite_mcause (c : Csr) (v : Word) (s : State) :
    (csrWrite c v s).mcause = if c = .mcause then v else s.mcause := rfl
@[simp] theorem csrWrite_mtval (c : Csr) (v : Word) (s : State) :
    (csrWrite c v s).mtval = if c = .mtval then v else s.mtval := rfl
@[simp] theorem csrWrite_dcsr (c : Csr) (v : Word) (s : State) :
    (csrWrite c v s).dcsr = if c = .dcsr then (s.dcsr &&& ~~~dcsrMask) ||| (v &&& dcsrMask) else s.dcsr := rfl
@[simp] theorem csrWrite_dpc (c : Csr) (v : Word) (s : State) :
    (csrWrite c v s).dpc = if c = .dpc then v &&& 0xFFFFFFFC#32 else s.dpc := rfl
@[simp] theorem csrWrite_reservation (c : Csr) (v : Word) (s : State) :
    (csrWrite c v s).reservation = s.reservation := rfl
@[simp] theorem csrWrite_scLoop (c : Csr) (v : Word) (s : State) :
    (csrWrite c v s).scLoop = s.scLoop := rfl
@[simp] theorem csrWrite_scParked (c : Csr) (v : Word) (s : State) :
    (csrWrite c v s).scParked = s.scParked := rfl
@[simp] theorem csrWrite_waiting (c : Csr) (v : Word) (s : State) : (csrWrite c v s).waiting = s.waiting := rfl
@[simp] theorem csrWrite_stepping (c : Csr) (v : Word) (s : State) : (csrWrite c v s).stepping = s.stepping := rfl
@[simp] theorem csrWrite_inReset (c : Csr) (v : Word) (s : State) : (csrWrite c v s).inReset = s.inReset := rfl
@[simp] theorem csrWrite_mem (c : Csr) (v : Word) (s : State) : (csrWrite c v s).mem = s.mem := rfl
@[simp] theorem csrWrite_stale (c : Csr) (v : Word) (s : State) : (csrWrite c v s).stale = s.stale := rfl
@[simp] theorem csrWrite_mtime (c : Csr) (v : Word) (s : State) : (csrWrite c v s).mtime = s.mtime := rfl
@[simp] theorem csrWrite_mtimecmp (c : Csr) (v : Word) (s : State) : (csrWrite c v s).mtimecmp = s.mtimecmp := rfl
@[simp] theorem csrWrite_msip (c : Csr) (v : Word) (s : State) : (csrWrite c v s).msip = s.msip := rfl
@[simp] theorem csrWrite_irq (c : Csr) (v : Word) (s : State) : (csrWrite c v s).irq = s.irq := rfl
@[simp] theorem csrWrite_dm (c : Csr) (v : Word) (s : State) : (csrWrite c v s).dm = s.dm := rfl
@[simp] theorem csrWrite_inbox (c : Csr) (v : Word) (s : State) : (csrWrite c v s).inbox = s.inbox := rfl
@[simp] theorem csrWrite_devLog (c : Csr) (v : Word) (s : State) : (csrWrite c v s).devLog = s.devLog := rfl
@[simp] theorem csrWrite_free (c : Csr) (v : Word) (s : State) : (csrWrite c v s).free = s.free := rfl

/-! ### `tick` -/

@[simp] theorem tick_cfg (u s : State) : (tick u s).cfg = s.cfg := rfl
@[simp] theorem tick_x (u s : State) : (tick u s).x = s.x := rfl
@[simp] theorem tick_pc (u s : State) : (tick u s).pc = s.pc := rfl
@[simp] theorem tick_mode (u s : State) : (tick u s).mode = s.mode := rfl
@[simp] theorem tick_mstatus (u s : State) : (tick u s).mstatus = s.mstatus := rfl
@[simp] theorem tick_mie (u s : State) : (tick u s).mie = s.mie := rfl
@[simp] theorem tick_mtvec (u s : State) : (tick u s).mtvec = s.mtvec := rfl
@[simp] theorem tick_mepc (u s : State) : (tick u s).mepc = s.mepc := rfl
@[simp] theorem tick_mcause (u s : State) : (tick u s).mcause = s.mcause := rfl
@[simp] theorem tick_mtval (u s : State) : (tick u s).mtval = s.mtval := rfl
@[simp] theorem tick_dcsr (u s : State) : (tick u s).dcsr = s.dcsr := rfl
@[simp] theorem tick_dpc (u s : State) : (tick u s).dpc = s.dpc := rfl
@[simp] theorem tick_reservation (u s : State) : (tick u s).reservation = s.reservation := rfl
@[simp] theorem tick_scLoop (u s : State) : (tick u s).scLoop = s.scLoop := rfl
@[simp] theorem tick_scParked (u s : State) : (tick u s).scParked = s.scParked := rfl
@[simp] theorem tick_waiting (u s : State) : (tick u s).waiting = s.waiting := rfl
@[simp] theorem tick_stepping (u s : State) : (tick u s).stepping = s.stepping := rfl
@[simp] theorem tick_inReset (u s : State) : (tick u s).inReset = s.inReset := rfl
@[simp] theorem tick_mem (u s : State) : (tick u s).mem = s.mem := rfl
@[simp] theorem tick_stale (u s : State) : (tick u s).stale = s.stale := rfl
@[simp] theorem tick_mtime (u s : State) : (tick u s).mtime = s.mtime + BitVec.ofNat 64 (tickAmount u) := rfl
@[simp] theorem tick_mtimecmp (u s : State) : (tick u s).mtimecmp = s.mtimecmp := rfl
@[simp] theorem tick_msip (u s : State) : (tick u s).msip = s.msip := rfl
@[simp] theorem tick_irq (u s : State) : (tick u s).irq = s.irq := rfl
@[simp] theorem tick_dm (u s : State) : (tick u s).dm = s.dm := rfl
@[simp] theorem tick_inbox (u s : State) : (tick u s).inbox = s.inbox := rfl
@[simp] theorem tick_devLog (u s : State) : (tick u s).devLog = s.devLog := rfl
@[simp] theorem tick_free (u s : State) : (tick u s).free = s.free + 1 := rfl

end Machine
end Sys2Proof
end

