-- ==== Sys2Proof/Laws/Ops.lean ====
section
/-! SUPPORT. What each operation of the hart does, said once: registers, going on, traps, returns and D-mode. -/

namespace Sys2Proof
namespace Machine

/-! ### Registers -/

@[simp] theorem getReg_zero (s : State) : s.getReg 0#5 = 0#32 := by simp [State.getReg]

/-- The registers read alike where the register file is the same. -/
theorem getReg_congr {s t : State} (h : t.x = s.x) (r : RegNum) : t.getReg r = s.getReg r := by
  simp [State.getReg, h]

/-- A read after a write. -/
theorem getReg_setReg (s : State) (rd r : RegNum) (v : Word) :
    (s.setReg rd v).getReg r = if r = rd ∧ rd ≠ 0 then v else s.getReg r := by
  by_cases h0 : r = 0#5
  · subst h0
    by_cases hr : 0#5 = rd
    · subst hr; simp
    · simp [hr]
  · by_cases hr : r = rd
    · subst hr
      simp [State.getReg, State.setReg, h0]
    · have hne : rd.toNat ≠ r.toNat := fun h => hr (BitVec.eq_of_toNat_eq h.symm)
      by_cases hrd : rd = 0#5
      · simp [State.getReg, State.setReg, hrd]
      · simp [State.getReg, State.setReg, h0, hr, hrd, hne]

/-! ### Going on -/

theorem advance_goesOn (s : State) : GoesOn s s.advance := by
  constructor <;> intro h <;> simp [h, BitVec.toNat_add, DebugModule.nextIndex]

/-- How every instruction that only computes ends. -/
theorem writeRd_computes (rd : RegNum) (v : Word) (s : State) :
    ∃ t, writeRd rd v s = .next t ∧ Computes rd v s t := by
  refine ⟨_, rfl, fun r => ?_, ?_, fun c => rfl, rfl⟩
  · rw [getReg_congr (t := (s.setReg rd v).advance) (s := s.setReg rd v) rfl, getReg_setReg]
  · exact advance_goesOn (s.setReg rd v)

/-! ### Traps -/

theorem and_fffffffc_toNat (v : Word) : (v &&& 0xFFFFFFFC#32).toNat = v.toNat / 4 * 4 := by
  have h : v &&& 0xFFFFFFFC#32 = v >>> 2 <<< 2 := by
    ext i hi
    simp only [BitVec.getElem_and, BitVec.getElem_shiftLeft, BitVec.getElem_ushiftRight]
    by_cases h2 : i < 2
    · have : i = 0 ∨ i = 1 := by omega
      rcases this with rfl | rfl <;> simp
    · have hm : (0xFFFFFFFC#32)[i] = true := by
        have : i ∈ List.range 32 := List.mem_range.mpr hi
        revert h2 hi this
        revert i
        decide
      simp [hm, h2, show 2 + (i - 2) = i by omega, BitVec.getLsbD_eq_getElem hi]
  rw [h, BitVec.toNat_shiftLeft, BitVec.toNat_ushiftRight, Nat.shiftRight_eq_div_pow, Nat.shiftLeft_eq]
  have := v.isLt
  omega

theorem mstatusWord_toNat (mie mpie : Bool) :
    (mstatusWord mie mpie).toNat = 0x1800 + (if mpie then 0x80 else 0) + (if mie then 8 else 0) := by
  cases mie <;> cases mpie <;> decide

theorem keepReservation_cases (k : Bool) (r : Option Word) : keepReservation k r = r ∨ keepReservation k r = none := by
  cases r <;> cases k <;> simp [keepReservation]

theorem mcauseWord_toNat (i : Bool) (c : BitVec 31) :
    (BitVec.ofBool i ++ c).toNat = (if i then 2 ^ 31 else 0) + c.toNat := by
  rw [BitVec.toNat_append, Nat.shiftLeft_eq, ← Nat.shiftLeft_eq, ← Nat.shiftLeft_add_eq_or_of_lt c.isLt, Nat.shiftLeft_eq]
  cases i <;> simp

theorem trapVectored_iff (s : State) : s.trapVectored = true ↔ s.mtvec.toNat % 4 = 1 := by
  simp only [State.trapVectored, beq_iff_eq]
  rw [← BitVec.toNat_inj, BitVec.extractLsb'_toNat]
  simp

theorem handlerAddress_at (s : State) (i : Bool) (c : BitVec 31) : HandlerAt i c.toNat s (s.handlerAddress i c) := by
  unfold HandlerAt State.handlerAddress
  have hv := trapVectored_iff s
  by_cases h : i = true ∧ s.mtvec.toNat % 4 = 1
  · rw [if_pos h, if_pos (by simp [h.1, hv.mpr h.2]), BitVec.toNat_add, State.trapBase, and_fffffffc_toNat,
      BitVec.toNat_mul, BitVec.toNat_setWidth]
    have := c.isLt
    have h4 : (4 : BitVec 32).toNat = 4 := rfl
    rw [h4]
    omega
  · rw [if_neg h, if_neg (by simpa [hv] using h), State.trapBase, and_fffffffc_toNat]
    have := s.mtvec.isLt
    omega

/-- What trap entry does. -/
theorem trapEntry_traps (i : Bool) (c : BitVec 31) (v e : Word) (s : State) :
    Traps i c.toNat v e s (trapEntry i c v e s) := by
  refine ⟨and_fffffffc_toNat e, mcauseWord_toNat i c, rfl, ?_, handlerAddress_at s i c, ?_, fun r => rfl, fun c => rfl,
    rfl⟩
  · rw [trapEntry_mstatus, mstatusWord_toNat]
    rfl
  · exact keepReservation_cases _ _

theorem debugException_endsBuffer (s : State) : EndsBuffer s (debugException s) := rfl

/-- What raising an exception does. -/
theorem raise_raises (e : Exc) (v : Word) (s : State) : Raises (excCode e).toNat v s (raise e v s) := by
  constructor <;> intro h
  · rw [raise, if_pos h]
    exact trapEntry_traps _ _ _ _ _
  · rw [raise, if_neg (by rw [h]; decide)]
    exact debugException_endsBuffer s

/-! ### Entering D-mode -/

theorem dcsrWithCause_bit (d : Word) (c : BitVec 3) (k : Nat) (h : k ∉ [0, 1, 6, 7, 8]) :
    (dcsrWithCause d c).getLsbD k = d.getLsbD k := by
  simp only [List.mem_cons, List.not_mem_nil, not_or, or_false] at h
  by_cases hk : k < 32
  · have hc : ∀ j, 3 ≤ j → c.getLsbD j = false := fun j hj => BitVec.getLsbD_of_ge _ _ hj
    interval_cases k <;> simp_all [dcsrWithCause]
  · simp [BitVec.getLsbD_of_ge _ _ (Nat.le_of_not_lt hk)]

theorem dcsrWithCause_cause (d : Word) (c : BitVec 3) : (dcsrWithCause d c).extractLsb' 6 3 = c := by
  ext i hi
  interval_cases i <;> simp [dcsrWithCause, ← BitVec.getLsbD_eq_getElem]

theorem dcsrWithCause_prv (d : Word) (c : BitVec 3) : (dcsrWithCause d c).extractLsb' 0 2 = 3#2 := by
  ext i hi
  interval_cases i <;> simp [dcsrWithCause]

/-- What entering D-mode does. -/
theorem enterDebug_halts (c : BitVec 3) (p : Word) (s : State) : Halts c.toNat p s (enterDebug c p s) := by
  refine ⟨and_fffffffc_toNat p, ?_, dcsrWithCause_prv _ _, fun k hk => dcsrWithCause_bit _ _ _ hk, rfl, rfl, ?_, rfl⟩
  · rw [enterDebug_dcsr, dcsrWithCause_cause]
    simp
  · rw [enterDebug_pc, and_fffffffc_toNat]
    exact Nat.mul_mod_left _ _

/-! ### Constrained LR/SC loops across traps and halts -/

/-- What is kept for the return of a loop interrupted at `p` goes on there, and nothing else is lost. -/
theorem parked_returns {s t : State} {l : ScLoop} {p : Word} (hl : s.scLoop = some l) (hp : l.phase ≠ .trying)
    (ht : t.scParked = s.parkLoop p) : t.parkedLoop p = some l ∧ t.parkedRest p = s.scParked := by
  simp [State.parkedLoop, State.parkedRest, ht, State.parkLoop, hl, hp]

end Machine
end Sys2Proof
end

