-- ==== Sys2Proof/Laws/Bus.lean ====
section
/-! SUPPORT. What the two ports do, said once: every outcome of a data read, a data write and a fetch, and what each
leaves unchanged; loads and stores over them. -/

namespace Sys2Proof
namespace Machine

/-- Every outcome of a data read. -/
theorem memRead_cases (z : AccessSize) (a : Word) (s : State) :
    (∃ c, ReachesStorage s a c ∧ memRead z a s = (s, some (Memory.load s.mem z c))) ∨
    (∃ r, dataAnswer s.cfg.dmap a.toNat = .timer ∧ timerWordAccess s.cfg z a = some r ∧
      memRead z a s = (s, some (timerLoad s r))) ∨
    (dataAnswer s.cfg.dmap a.toNat = .timer ∧ timerWordAccess s.cfg z a = none ∧
      memRead z a s = (s, (Config.timerOtherLoad s.free).map z.clip)) ∨
    (∃ id, dataAnswer s.cfg.dmap a.toNat = .device id ∧
      memRead z a s = (logDevice (.read id a z) s, (Config.deviceRead s.free).map z.clip)) ∨
    (Unmapped s a ∧ memRead z a s = (s, none)) := by
  unfold memRead ReachesStorage Unmapped
  cases h : dataAnswer s.cfg.dmap a.toNat with
  | memory c => exact .inl ⟨c, rfl, rfl⟩
  | timer =>
    cases ht : timerWordAccess s.cfg z a with
    | some r => exact .inr (.inl ⟨r, rfl, rfl, rfl⟩)
    | none => exact .inr (.inr (.inl ⟨rfl, rfl, rfl⟩))
  | device id => exact .inr (.inr (.inr (.inl ⟨id, rfl, rfl⟩)))
  | fault => exact .inr (.inr (.inr (.inr ⟨rfl, rfl⟩)))

/-- A data read changes nothing but the record of device accesses. -/
theorem memRead_frame (z : AccessSize) (a : Word) (s : State) :
    (memRead z a s).1 = { s with devLog := (memRead z a s).1.devLog } := by
  rcases memRead_cases z a s with ⟨c, -, h⟩ | ⟨r, -, -, h⟩ | ⟨-, -, h⟩ | ⟨i, -, h⟩ | ⟨-, h⟩ <;> rw [h] <;> rfl

/-- A data read keeps the mode. -/
theorem memRead_mode (z : AccessSize) (a : Word) (s : State) : (memRead z a s).1.mode = s.mode := by
  rw [memRead_frame]

/-- Every outcome of a data write. -/
theorem memWrite_cases (z : AccessSize) (a v : Word) (s : State) :
    (∃ c, ReachesStorage s a c ∧ memWrite z a v s = (breakReservation a (writeStorage z c v s), true)) ∨
    (∃ r, dataAnswer s.cfg.dmap a.toNat = .timer ∧ timerWordAccess s.cfg z a = some r ∧
      memWrite z a v s = (breakReservation a (timerStore s r v), true)) ∨
    (∃ t, dataAnswer s.cfg.dmap a.toNat = .timer ∧ timerWordAccess s.cfg z a = none ∧
      Config.timerOtherStore s.free = some t ∧ memWrite z a v s = (breakReservation a (setTimer t s), true)) ∨
    (dataAnswer s.cfg.dmap a.toNat = .timer ∧ timerWordAccess s.cfg z a = none ∧
      Config.timerOtherStore s.free = none ∧ memWrite z a v s = (s, false)) ∨
    (∃ id, dataAnswer s.cfg.dmap a.toNat = .device id ∧
      memWrite z a v s =
        (breakReservation a (logDevice (.write id a z (z.clip v)) s), Config.deviceWrite s.free)) ∨
    (Unmapped s a ∧ memWrite z a v s = (s, false)) := by
  unfold memWrite ReachesStorage Unmapped
  cases h : dataAnswer s.cfg.dmap a.toNat with
  | memory c => exact .inl ⟨c, rfl, rfl⟩
  | timer =>
    cases ht : timerWordAccess s.cfg z a with
    | some r => exact .inr (.inl ⟨r, rfl, rfl, rfl⟩)
    | none =>
      cases ho : Config.timerOtherStore s.free with
      | some t => exact .inr (.inr (.inl ⟨t, rfl, rfl, rfl, rfl⟩))
      | none => exact .inr (.inr (.inr (.inl ⟨rfl, rfl, rfl, rfl⟩)))
  | device id => exact .inr (.inr (.inr (.inr (.inl ⟨id, rfl, rfl⟩))))
  | fault => exact .inr (.inr (.inr (.inr (.inr ⟨rfl, rfl⟩))))

/-- A data write changes nothing but storage, the words remembered for early fetches, the timer module, the record of
device accesses and the reservation. -/
theorem memWrite_frame (z : AccessSize) (a v : Word) (s : State) :
    (memWrite z a v s).1 =
      { s with
        mem := (memWrite z a v s).1.mem, stale := (memWrite z a v s).1.stale,
        mtime := (memWrite z a v s).1.mtime, mtimecmp := (memWrite z a v s).1.mtimecmp,
        msip := (memWrite z a v s).1.msip, devLog := (memWrite z a v s).1.devLog,
        reservation := (memWrite z a v s).1.reservation } := by
  rcases memWrite_cases z a v s with
    ⟨c, -, h⟩ | ⟨r, -, -, h⟩ | ⟨t, -, -, -, h⟩ | ⟨-, -, -, h⟩ | ⟨i, -, h⟩ | ⟨-, h⟩ <;> rw [h] <;> rfl

/-- After a write of this hart the reservation is kept or lost (45 R333). -/
theorem breakReservation_cases (a : Word) (s : State) :
    (breakReservation a s).reservation = s.reservation ∨ (breakReservation a s).reservation = none := by
  unfold breakReservation
  by_cases h : s.reserves a = true
  · simp only [h, if_true]
    exact keepReservation_cases _ _
  · simp [h]

/-- The canonical form survives every data write. -/
theorem memWrite_wf (z : AccessSize) (a v : Word) (s : State) (h : Memory.wf s.mem = true) :
    Memory.wf (memWrite z a v s).1.mem = true := by
  rcases memWrite_cases z a v s with
    ⟨c, -, e⟩ | ⟨r, -, -, e⟩ | ⟨t, -, -, -, e⟩ | ⟨-, -, -, e⟩ | ⟨i, -, e⟩ | ⟨-, e⟩ <;> rw [e]
  · exact Memory.wf_store _ _ _ _ h
  all_goals exact h

/-- A load from storage. -/
theorem loadOp_storage (z : AccessSize) (ext : Word → Word) (rd : RegNum) (ea : Word) (s : State) (c : Nat)
    (ha : z.aligned ea = true) (hc : ReachesStorage s ea c) :
    loadOp z ext rd ea s = writeRd rd (ext (Memory.load s.mem z c)) s := by
  simp only [loadOp, ha, if_true, memRead, show dataAnswer s.cfg.dmap ea.toNat = .memory c from hc]

/-- A store to storage. -/
theorem storeOp_storage (z : AccessSize) (ea v : Word) (s : State) (c : Nat)
    (ha : z.aligned ea = true) (hc : ReachesStorage s ea c) :
    storeOp z ea v s = .next (breakReservation ea (writeStorage z c v s)).advance := by
  simp only [storeOp, ha, if_true, memWrite, show dataAnswer s.cfg.dmap ea.toNat = .memory c from hc]

/-- The words over `n` cells from `c` on: those that begin at most three cells before `c` and before `c + n`. -/
theorem mem_wordsOver (c n d : Nat) : d ∈ wordsOver c n ↔ c ≤ d + 3 ∧ d < c + n := by
  simp only [wordsOver, List.mem_range'_1]
  omega

/-- A store to storage remembers what each word it falls into held. -/
theorem writeStorage_remembers (z : AccessSize) (c : Nat) (v : Word) (s : State) (d : Nat) (w : Word) :
    (d, w) ∈ (writeStorage z c v s).stale ↔
      (d, w) ∈ s.stale ∨ (c ≤ d + 3 ∧ d < c + z.bytes ∧ w = Memory.load s.mem .word d) := by
  simp only [writeStorage_stale, List.mem_append, List.mem_map, Prod.mk.injEq, mem_wordsOver]
  constructor
  · rintro (⟨e, h, rfl, rfl⟩ | h)
    · exact .inr ⟨h.1, h.2, rfl⟩
    · exact .inl h
  · rintro (h | ⟨h1, h2, rfl⟩)
    · exact .inr h
    · exact .inl ⟨d, ⟨h1, h2⟩, rfl, rfl⟩

/-- A word a fetch returns is what its cell holds, or a word remembered for that cell since the last FENCE.I. -/
theorem fetchWord_cases (s : State) (c : Nat) :
    fetchWord s c = Memory.load s.mem .word c ∨ (c, fetchWord s c) ∈ s.stale := by
  have hin : ∀ w ∈ staleWords s.stale c, (c, w) ∈ s.stale := by
    intro w hw
    obtain ⟨⟨d, v⟩, hp, rfl⟩ := List.mem_map.mp hw
    obtain ⟨hp, hd⟩ := List.mem_filter.mp hp
    rwa [← show d = c by simpa using hd]
  unfold fetchWord
  split
  · exact .inl rfl
  · rename_i w ws hs
    have hlt : Config.pickFetch s.free % (ws.length + 2) < (Memory.load s.mem .word c :: w :: ws).length :=
        Nat.mod_lt _ (Nat.succ_pos _)
    rw [List.getD_eq_getElem _ _ hlt]
    rcases List.mem_cons.mp (List.getElem_mem hlt) with h | h
    · exact .inl h
    · exact .inr (hin _ (by rw [hs]; exact h))

end Machine
end Sys2Proof
end

