-- ==== Sys2Proof/Laws/Exec.lean ====
section
/-! SUPPORT. What any instruction can do, said once: every next state comes from the old one by a chain of the
operations listed in `Primitives`. A property of pairs of states that holds of each of them and of chains holds of
every instruction. -/

namespace Sys2Proof
namespace Machine

/-- The six CSR instructions. -/
def isCsrInstr : Instr → Bool
  | .csrrw _ _ _ | .csrrs _ _ _ | .csrrc _ _ _ | .csrrwi _ _ _ | .csrrsi _ _ _ | .csrrci _ _ _ => true
  | _ => false

/-- LR.W or SC.W. -/
def isLrSc : Instr → Bool
  | .lrW _ _ _ _ | .scW _ _ _ _ _ => true
  | _ => false

/-- A relation between states kept by each operation instruction `i` can be made of. -/
structure Primitives (i : Instr) (R : State → State → Prop) : Prop where
  refl : ∀ s, R s s
  trans : ∀ {a b c}, R a b → R b c → R a c
  setReg : ∀ s rd v, R s (s.setReg rd v)
  advance : ∀ s : State, R s s.advance
  raise : ∀ s e v, R s (raise e v s)
  read : ∀ s z a, R s (memRead z a s).1
  write : ∀ s z a v, R s (memWrite z a v s).1
  csr : isCsrInstr i = true → ∀ s c v, R s (csrWrite c v s)
  reserve : isLrSc i = true → ∀ (s : State) r l, (l.isSome = true → s.mode = .M ∨ s.scLoop.isSome = true) →
    R s { s with reservation := r, scLoop := l }
  jump : ∀ (s : State) p, s.mode = .M → (i.wellFormed = true → s.pc.toNat % 2 = 0 → p.toNat % 2 = 0) →
    (s.cfg.misaligned = .atJump → p.toNat % 4 = 0) → R s { s with pc := p }
  transfer : ∀ s, s.mode = .D → R s (debugTransfer s)
  ret : i = .mret → ∀ s, s.mode = .M → R s (trapReturn s)
  halt : i = .ebreak → ∀ s, s.mode = .M → s.dcsr.getLsbD 15 = true → R s (enterDebug 1 s.pc s)
  endBuffer : i = .ebreak → ∀ s : State, s.mode = .D → R s { s with dm := { s.dm with pbIndex := none } }
  wait : i = .wfi → ∀ s : State, s.mode = .M → R s { s with waiting := true }
  refetch : ∀ s : State, R s { s with stale := [] }
  leave : i = .dret → ∀ s, s.mode = .D → R s (leaveDebug s)

variable {i : Instr} {R : State → State → Prop}

theorem Primitives.writeRd (p : Primitives i R) {rd : RegNum} {v : Word} {s t : State}
    (h : writeRd rd v s = .next t) : R s t := by
  cases h
  exact p.trans (p.setReg s rd v) (p.advance _)

theorem Primitives.loadOp (p : Primitives i R) {z : AccessSize} {ext : Word → Word} {rd : RegNum} {ea : Word}
    {s t : State} (h : loadOp z ext rd ea s = .next t) : R s t := by
  unfold Machine.loadOp at h
  split at h
  · have hr := p.read s z ea
    split at h <;> rename_i e <;> rw [e] at hr
    · exact p.trans hr (p.writeRd h)
    · cases h
      exact p.trans hr (p.raise _ _ _)
  · cases h
    exact p.raise _ _ _

theorem Primitives.storeOp (p : Primitives i R) {z : AccessSize} {ea v : Word} {s t : State}
    (h : storeOp z ea v s = .next t) : R s t := by
  unfold Machine.storeOp at h
  split at h
  · have hw := p.write s z ea v
    split at h <;> rename_i e <;> rw [e] at hw <;> cases h
    · exact p.trans hw (p.advance _)
    · exact p.trans hw (p.raise _ _ _)
  · cases h
    exact p.raise _ _ _

theorem Primitives.amoOp (p : Primitives i R) {f : Word → Word → Word} {rd rs1 rs2 : RegNum} {s t : State}
    (h : amoOp f rd rs1 rs2 s = .next t) : R s t := by
  simp only [Machine.amoOp] at h
  split at h
  · have hr := p.read s .word (s.getReg rs1)
    split at h <;> rename_i e <;> rw [e] at hr
    · cases h
      exact p.trans hr (p.raise _ _ _)
    · rename_i s' old
      have hw := p.write s' .word (s.getReg rs1) (f old (s.getReg rs2))
      split at h <;> rename_i e <;> rw [e] at hw
      · exact p.trans (p.trans hr hw) (p.writeRd h)
      · cases h
        exact p.trans (p.trans hr hw) (p.raise _ _ _)
  · cases h
    exact p.raise _ _ _

theorem Primitives.csrInstr (p : Primitives i R) (hi : isCsrInstr i = true) {j : Instr} {rd : RegNum} {n : CsrNum} {w : Bool}
    {f : Word → Word} {s t : State} (h : csrInstr j rd n w f s = .next t) : R s t := by
  unfold Machine.csrInstr at h
  split at h
  · cases h
    exact p.raise _ _ _
  · refine p.trans ?_ (p.writeRd h)
    split
    · exact p.csr hi _ _ _
    · exact p.refl _

/-- `target[1:0]` is 00 where the target is not reported. -/
theorem misalignedTarget_false {t : Word} : misalignedTarget t = false ↔ t.toNat % 4 = 0 := by
  simp [misalignedTarget]

theorem Primitives.jumpTo (p : Primitives i R) {target : Word} {s : State} {link : State → State}
    (hm : s.mode = .M) (hl : R s (link s)) (hlm : (link s).mode = s.mode) (hlp : (link s).pc = s.pc)
    (hlc : (link s).cfg = s.cfg) (he : i.wellFormed = true → s.pc.toNat % 2 = 0 → target.toNat % 2 = 0) : R s (jumpTo target link s) := by
  unfold Machine.jumpTo
  split
  · exact p.raise _ _ _
  · rename_i hc
    refine p.trans hl (p.jump _ _ (hlm.trans hm) (by rwa [hlp]) fun hr => ?_)
    rw [hlc] at hr
    simpa [hr, misalignedTarget] using hc

theorem Primitives.linkAndJump (p : Primitives i R) {rd : RegNum} {target : Word} {s t : State}
    (he : i.wellFormed = true → s.pc.toNat % 2 = 0 → target.toNat % 2 = 0) (h : linkAndJump rd target s = .next t) : R s t := by
  unfold Machine.linkAndJump at h
  split at h <;> cases h
  · rename_i hm
    exact p.jumpTo hm (p.setReg _ _ _) rfl rfl rfl he
  · rename_i hm
    refine p.trans (p.setReg _ _ _) (p.transfer _ ?_)
    show s.mode = .D
    cases h : s.mode <;> simp_all

/-- A number whose bit 0 is clear is even. -/
theorem even_of_bit (v : Word) (h : v.getLsbD 0 = false) : v.toNat % 2 = 0 := by
  rw [BitVec.getLsbD, Nat.testBit_zero] at h
  simpa using h

/-- A sum with an even offset is even. -/
theorem even_target {n : Nat} (hn : n ≤ 32) (a : Word) (off : BitVec n) (h : evenOffset off = true)
    (ha : a.toNat % 2 = 0) : (a + sext off).toNat % 2 = 0 := by
  have h0 : (sext off).toNat % 2 = 0 := by
    apply even_of_bit
    rw [sext, BitVec.getLsbD_signExtend]
    rcases Nat.eq_zero_or_pos n with rfl | hp
    · simp [BitVec.msb_eq_getLsbD_last]
    · simp only [hp, if_true]
      simpa [evenOffset] using h
  rw [BitVec.toNat_add]
  omega

theorem Primitives.branch (p : Primitives i R) {taken : Bool} {off : BitVec 13} {s t : State}
    (he : i.wellFormed = true → evenOffset off = true) (h : branch taken off s = .next t) : R s t := by
  unfold Machine.branch at h
  split at h <;> cases h
  · rename_i hm
    split
    · exact p.jumpTo hm (p.refl _) rfl rfl rfl fun w => even_target (by decide) _ _ (he w)
    · exact p.advance _
  · rename_i hm
    refine p.transfer _ ?_
    cases h : s.mode <;> simp_all

/-- An LR.W begins a loop in M-mode only. -/
theorem loopAtLr_mode {s : State} (h : s.loopAtLr.isSome = true) : s.mode = .M := by
  unfold State.loopAtLr at h
  cases hm : s.mode <;> simp_all

/-- What a constrained SC.W is (45 R335). -/
theorem constrained_eq_some {s : State} {a : Word} {l : ScLoop} {n : Nat} :
    s.constrained a = some (l, n) ↔
      s.scLoop = some l ∧ l.phase = .trying ∧ s.reservation = some a ∧ l.left.getD (Config.spuriousRun s.free) = n := by
  unfold State.constrained
  cases hs : s.scLoop with
  | none => simp
  | some k =>
    by_cases hk : k.phase = .trying ∧ s.reservation = some a
    · simp only [hk, and_self, if_true, Option.some.injEq, Prod.mk.injEq]
      exact ⟨fun ⟨e, f⟩ => by subst e; exact ⟨rfl, hk.1, trivial, f⟩, fun ⟨e, _, _, f⟩ => by subst e; exact ⟨rfl, f⟩⟩
    · simp only [hk, if_false, Option.some.injEq, reduceCtorEq, false_iff]
      rintro ⟨rfl, h1, h2, -⟩
      exact hk ⟨h1, h2⟩

/-- A failed SC.W leaves a loop only where there was one. -/
theorem loopAfterFailure_isSome {s : State} {a : Word} (h : (s.loopAfterFailure a).isSome = true) :
    s.scLoop.isSome = true := by
  unfold State.loopAfterFailure at h
  rw [Option.isSome_map] at h
  obtain ⟨⟨l, n⟩, e⟩ := Option.isSome_iff_exists.mp h
  rw [(constrained_eq_some.mp e).1]
  rfl

theorem Primitives.lrW (p : Primitives i R) (hi : isLrSc i = true) {aq rl : Bool} {rd rs1 : RegNum} {s t : State}
    (h : execLrW aq rl rd rs1 s = .next t) : R s t := by
  simp only [execLrW] at h
  split at h
  · have hr := p.read s .word (s.getReg rs1)
    split at h <;> rename_i e <;> rw [e] at hr
    · have hm := memRead_mode .word (s.getReg rs1) s
      rw [e] at hm
      exact p.trans hr (p.trans (p.reserve hi _ _ _ fun hl => .inl (hm.trans (loopAtLr_mode hl))) (p.writeRd h))
    · cases h
      exact p.trans hr (p.raise _ _ _)
  · cases h
    exact p.raise _ _ _

theorem Primitives.scW (p : Primitives i R) (hi : isLrSc i = true) {aq rl : Bool} {rd rs1 rs2 : RegNum} {s t : State}
    (h : execScW aq rl rd rs1 rs2 s = .next t) : R s t := by
  simp only [execScW] at h
  split at h
  · split at h
    · have hw := p.write s .word (s.getReg rs1) (s.getReg rs2)
      split at h <;> rename_i e <;> rw [e] at hw
      · exact p.trans hw (p.trans (p.reserve hi _ _ _ (by simp)) (p.writeRd h))
      · cases h
        exact p.trans hw (p.raise _ _ _)
    · exact p.trans (p.reserve hi _ _ _ fun hl => .inr (loopAfterFailure_isSome hl)) (p.writeRd h)
  · cases h
    exact p.raise _ _ _

theorem Primitives.fenceI (p : Primitives i R) {imm : BitVec 12} {rs1 rd : RegNum} {s t : State}
    (h : execFenceI imm rs1 rd s = .next t) : R s t := by
  unfold execFenceI at h
  split at h <;> cases h
  · exact p.trans (p.advance _) (p.refetch _)
  · exact p.raise _ _ _

theorem Primitives.ecall (p : Primitives i R) {s t : State} (h : execEcall s = .next t) : R s t := by
  unfold execEcall at h
  split at h <;> cases h
  exact p.raise _ _ _

theorem Primitives.ebreak (p : Primitives .ebreak R) {s t : State} (h : execEbreak s = .next t) : R s t := by
  unfold execEbreak at h
  split at h
  · rename_i hm
    split at h <;> cases h
    · rename_i hb
      exact p.halt rfl _ hm hb
    · exact p.raise _ _ _
  · rename_i hm
    cases h
    refine p.endBuffer rfl _ ?_
    cases h : s.mode <;> simp_all

theorem Primitives.mret (p : Primitives .mret R) {s t : State} (h : execMret s = .next t) : R s t := by
  unfold execMret at h
  split at h <;> cases h
  rename_i hm
  exact p.ret rfl _ hm

theorem Primitives.wfi (p : Primitives .wfi R) {s t : State} (h : execWfi s = .next t) : R s t := by
  unfold execWfi at h
  split at h <;> cases h
  rename_i hm
  exact p.trans (p.advance _) (p.wait rfl _ hm)

theorem Primitives.dret (p : Primitives .dret R) {s t : State} (h : execDret s = .next t) : R s t := by
  unfold execDret at h
  split at h <;> cases h
  · exact p.raise _ _ _
  · rename_i hm
    refine p.leave rfl _ ?_
    cases h : s.mode <;> simp_all

/-- Bit 0 of a JALR target is cleared. -/
theorem jalr_target_even (v : Word) : (v &&& 0xFFFFFFFE#32).toNat % 2 = 0 :=
  even_of_bit _ (by rw [BitVec.getLsbD_and]; exact Bool.and_false _)

/-- Every next state of an instruction comes from the old one by a chain of the operations of `Primitives`. -/
theorem Primitives.exec (p : Primitives i R) {s t : State}
    (h : exec i s = .next t) : R s t := by
  cases i with
  | lui rd imm => exact p.writeRd h
  | auipc rd imm => exact p.writeRd h
  | jal rd off => exact p.linkAndJump (fun w => even_target (by decide) _ _ w) h
  | jalr rd rs1 imm => exact p.linkAndJump (fun _ _ => jalr_target_even _) h
  | beq rs1 rs2 off => exact p.branch id h
  | bne rs1 rs2 off => exact p.branch id h
  | blt rs1 rs2 off => exact p.branch id h
  | bge rs1 rs2 off => exact p.branch id h
  | bltu rs1 rs2 off => exact p.branch id h
  | bgeu rs1 rs2 off => exact p.branch id h
  | lb rd rs1 imm => exact p.loadOp h
  | lh rd rs1 imm => exact p.loadOp h
  | lw rd rs1 imm => exact p.loadOp h
  | lbu rd rs1 imm => exact p.loadOp h
  | lhu rd rs1 imm => exact p.loadOp h
  | sb rs1 rs2 imm => exact p.storeOp h
  | sh rs1 rs2 imm => exact p.storeOp h
  | sw rs1 rs2 imm => exact p.storeOp h
  | addi rd rs1 imm => exact p.writeRd h
  | slti rd rs1 imm => exact p.writeRd h
  | sltiu rd rs1 imm => exact p.writeRd h
  | xori rd rs1 imm => exact p.writeRd h
  | ori rd rs1 imm => exact p.writeRd h
  | andi rd rs1 imm => exact p.writeRd h
  | slli rd rs1 shamt => exact p.writeRd h
  | srli rd rs1 shamt => exact p.writeRd h
  | srai rd rs1 shamt => exact p.writeRd h
  | add rd rs1 rs2 => exact p.writeRd h
  | sub rd rs1 rs2 => exact p.writeRd h
  | sll rd rs1 rs2 => exact p.writeRd h
  | slt rd rs1 rs2 => exact p.writeRd h
  | sltu rd rs1 rs2 => exact p.writeRd h
  | xor rd rs1 rs2 => exact p.writeRd h
  | srl rd rs1 rs2 => exact p.writeRd h
  | sra rd rs1 rs2 => exact p.writeRd h
  | or rd rs1 rs2 => exact p.writeRd h
  | and rd rs1 rs2 => exact p.writeRd h
  | fence fm pred succ rs1 rd => cases h; exact p.advance _
  | fenceI imm rs1 rd => exact p.fenceI h
  | ecall => exact p.ecall h
  | ebreak => exact p.ebreak h
  | csrrw rd csr rs1 =>
    simp only [Machine.exec, execCsrrw] at h
    exact p.csrInstr rfl h
  | csrrs rd csr rs1 =>
    simp only [Machine.exec, execCsrrs] at h
    exact p.csrInstr rfl h
  | csrrc rd csr rs1 =>
    simp only [Machine.exec, execCsrrc] at h
    exact p.csrInstr rfl h
  | csrrwi rd csr uimm =>
    simp only [Machine.exec, execCsrrwi] at h
    exact p.csrInstr rfl h
  | csrrsi rd csr uimm =>
    simp only [Machine.exec, execCsrrsi] at h
    exact p.csrInstr rfl h
  | csrrci rd csr uimm =>
    simp only [Machine.exec, execCsrrci] at h
    exact p.csrInstr rfl h
  | mret => exact p.mret h
  | wfi => exact p.wfi h
  | dret => exact p.dret h
  | lrW aq rl rd rs1 => exact p.lrW rfl (aq := aq) (rl := rl) h
  | scW aq rl rd rs1 rs2 => exact p.scW rfl (aq := aq) (rl := rl) h
  | amoswapW aq rl rd rs1 rs2 =>
    simp only [Machine.exec, execAmoswapW] at h
    exact p.amoOp h
  | amoaddW aq rl rd rs1 rs2 =>
    simp only [Machine.exec, execAmoaddW] at h
    exact p.amoOp h
  | amoxorW aq rl rd rs1 rs2 =>
    simp only [Machine.exec, execAmoxorW] at h
    exact p.amoOp h
  | amoandW aq rl rd rs1 rs2 =>
    simp only [Machine.exec, execAmoandW] at h
    exact p.amoOp h
  | amoorW aq rl rd rs1 rs2 =>
    simp only [Machine.exec, execAmoorW] at h
    exact p.amoOp h
  | amominW aq rl rd rs1 rs2 =>
    simp only [Machine.exec, execAmominW] at h
    exact p.amoOp h
  | amomaxW aq rl rd rs1 rs2 =>
    simp only [Machine.exec, execAmomaxW] at h
    exact p.amoOp h
  | amominuW aq rl rd rs1 rs2 =>
    simp only [Machine.exec, execAmominuW] at h
    exact p.amoOp h
  | amomaxuW aq rl rd rs1 rs2 =>
    simp only [Machine.exec, execAmomaxuW] at h
    exact p.amoOp h

end Machine
end Sys2Proof
end

