-- ==== Sys2Proof/Laws/PerInstr.lean ====
section
/-! SUPPORT. A family of facts about every instruction, one lemma for each constructor: the two low bits of an
instruction's word are 11 (30_encoding R150). -/

namespace Sys2Proof
namespace Laws
namespace LowBits

/-- `inst[1:0]` is 11. -/
def Statement (i : Instr) : Prop := (encode i).extractLsb' 0 2 = 3#2

/-- The low two bits of a word put together from fields are those of its last field. -/
theorem low_append {m n : Nat} (x : BitVec m) (y : BitVec n) (h : 2 ≤ n) :
    (x ++ y).extractLsb' 0 2 = y.extractLsb' 0 2 := by
  ext i hi
  have h' : i < n := by omega
  simp [BitVec.getLsbD_append, h']

theorem lui : ∀ a0 a1, Statement (.lui a0 a1) := fun _ _ => low_append _ _ (by decide)
theorem auipc : ∀ a0 a1, Statement (.auipc a0 a1) := fun _ _ => low_append _ _ (by decide)
theorem jal : ∀ a0 a1, Statement (.jal a0 a1) := fun _ _ => low_append _ _ (by decide)
theorem jalr : ∀ a0 a1 a2, Statement (.jalr a0 a1 a2) := fun _ _ _ => low_append _ _ (by decide)
theorem beq : ∀ a0 a1 a2, Statement (.beq a0 a1 a2) := fun _ _ _ => low_append _ _ (by decide)
theorem bne : ∀ a0 a1 a2, Statement (.bne a0 a1 a2) := fun _ _ _ => low_append _ _ (by decide)
theorem blt : ∀ a0 a1 a2, Statement (.blt a0 a1 a2) := fun _ _ _ => low_append _ _ (by decide)
theorem bge : ∀ a0 a1 a2, Statement (.bge a0 a1 a2) := fun _ _ _ => low_append _ _ (by decide)
theorem bltu : ∀ a0 a1 a2, Statement (.bltu a0 a1 a2) := fun _ _ _ => low_append _ _ (by decide)
theorem bgeu : ∀ a0 a1 a2, Statement (.bgeu a0 a1 a2) := fun _ _ _ => low_append _ _ (by decide)
theorem lb : ∀ a0 a1 a2, Statement (.lb a0 a1 a2) := fun _ _ _ => low_append _ _ (by decide)
theorem lh : ∀ a0 a1 a2, Statement (.lh a0 a1 a2) := fun _ _ _ => low_append _ _ (by decide)
theorem lw : ∀ a0 a1 a2, Statement (.lw a0 a1 a2) := fun _ _ _ => low_append _ _ (by decide)
theorem lbu : ∀ a0 a1 a2, Statement (.lbu a0 a1 a2) := fun _ _ _ => low_append _ _ (by decide)
theorem lhu : ∀ a0 a1 a2, Statement (.lhu a0 a1 a2) := fun _ _ _ => low_append _ _ (by decide)
theorem sb : ∀ a0 a1 a2, Statement (.sb a0 a1 a2) := fun _ _ _ => low_append _ _ (by decide)
theorem sh : ∀ a0 a1 a2, Statement (.sh a0 a1 a2) := fun _ _ _ => low_append _ _ (by decide)
theorem sw : ∀ a0 a1 a2, Statement (.sw a0 a1 a2) := fun _ _ _ => low_append _ _ (by decide)
theorem addi : ∀ a0 a1 a2, Statement (.addi a0 a1 a2) := fun _ _ _ => low_append _ _ (by decide)
theorem slti : ∀ a0 a1 a2, Statement (.slti a0 a1 a2) := fun _ _ _ => low_append _ _ (by decide)
theorem sltiu : ∀ a0 a1 a2, Statement (.sltiu a0 a1 a2) := fun _ _ _ => low_append _ _ (by decide)
theorem xori : ∀ a0 a1 a2, Statement (.xori a0 a1 a2) := fun _ _ _ => low_append _ _ (by decide)
theorem ori : ∀ a0 a1 a2, Statement (.ori a0 a1 a2) := fun _ _ _ => low_append _ _ (by decide)
theorem andi : ∀ a0 a1 a2, Statement (.andi a0 a1 a2) := fun _ _ _ => low_append _ _ (by decide)
theorem slli : ∀ a0 a1 a2, Statement (.slli a0 a1 a2) := fun _ _ _ => low_append _ _ (by decide)
theorem srli : ∀ a0 a1 a2, Statement (.srli a0 a1 a2) := fun _ _ _ => low_append _ _ (by decide)
theorem srai : ∀ a0 a1 a2, Statement (.srai a0 a1 a2) := fun _ _ _ => low_append _ _ (by decide)
theorem add : ∀ a0 a1 a2, Statement (.add a0 a1 a2) := fun _ _ _ => low_append _ _ (by decide)
theorem sub : ∀ a0 a1 a2, Statement (.sub a0 a1 a2) := fun _ _ _ => low_append _ _ (by decide)
theorem sll : ∀ a0 a1 a2, Statement (.sll a0 a1 a2) := fun _ _ _ => low_append _ _ (by decide)
theorem slt : ∀ a0 a1 a2, Statement (.slt a0 a1 a2) := fun _ _ _ => low_append _ _ (by decide)
theorem sltu : ∀ a0 a1 a2, Statement (.sltu a0 a1 a2) := fun _ _ _ => low_append _ _ (by decide)
theorem xor : ∀ a0 a1 a2, Statement (.xor a0 a1 a2) := fun _ _ _ => low_append _ _ (by decide)
theorem srl : ∀ a0 a1 a2, Statement (.srl a0 a1 a2) := fun _ _ _ => low_append _ _ (by decide)
theorem sra : ∀ a0 a1 a2, Statement (.sra a0 a1 a2) := fun _ _ _ => low_append _ _ (by decide)
theorem or : ∀ a0 a1 a2, Statement (.or a0 a1 a2) := fun _ _ _ => low_append _ _ (by decide)
theorem and : ∀ a0 a1 a2, Statement (.and a0 a1 a2) := fun _ _ _ => low_append _ _ (by decide)
theorem fence : ∀ a0 a1 a2 a3 a4, Statement (.fence a0 a1 a2 a3 a4) := fun _ _ _ _ _ => low_append _ _ (by decide)
theorem fenceI : ∀ a0 a1 a2, Statement (.fenceI a0 a1 a2) := fun _ _ _ => low_append _ _ (by decide)
theorem ecall : Statement .ecall := by unfold Statement; decide
theorem ebreak : Statement .ebreak := by unfold Statement; decide
theorem csrrw : ∀ a0 a1 a2, Statement (.csrrw a0 a1 a2) := fun _ _ _ => low_append _ _ (by decide)
theorem csrrs : ∀ a0 a1 a2, Statement (.csrrs a0 a1 a2) := fun _ _ _ => low_append _ _ (by decide)
theorem csrrc : ∀ a0 a1 a2, Statement (.csrrc a0 a1 a2) := fun _ _ _ => low_append _ _ (by decide)
theorem csrrwi : ∀ a0 a1 a2, Statement (.csrrwi a0 a1 a2) := fun _ _ _ => low_append _ _ (by decide)
theorem csrrsi : ∀ a0 a1 a2, Statement (.csrrsi a0 a1 a2) := fun _ _ _ => low_append _ _ (by decide)
theorem csrrci : ∀ a0 a1 a2, Statement (.csrrci a0 a1 a2) := fun _ _ _ => low_append _ _ (by decide)
theorem mret : Statement .mret := by unfold Statement; decide
theorem wfi : Statement .wfi := by unfold Statement; decide
theorem dret : Statement .dret := by unfold Statement; decide
theorem lrW : ∀ a0 a1 a2 a3, Statement (.lrW a0 a1 a2 a3) := fun _ _ _ _ => low_append _ _ (by decide)
theorem scW : ∀ a0 a1 a2 a3 a4, Statement (.scW a0 a1 a2 a3 a4) := fun _ _ _ _ _ => low_append _ _ (by decide)
theorem amoswapW : ∀ a0 a1 a2 a3 a4, Statement (.amoswapW a0 a1 a2 a3 a4) := fun _ _ _ _ _ => low_append _ _ (by decide)
theorem amoaddW : ∀ a0 a1 a2 a3 a4, Statement (.amoaddW a0 a1 a2 a3 a4) := fun _ _ _ _ _ => low_append _ _ (by decide)
theorem amoxorW : ∀ a0 a1 a2 a3 a4, Statement (.amoxorW a0 a1 a2 a3 a4) := fun _ _ _ _ _ => low_append _ _ (by decide)
theorem amoandW : ∀ a0 a1 a2 a3 a4, Statement (.amoandW a0 a1 a2 a3 a4) := fun _ _ _ _ _ => low_append _ _ (by decide)
theorem amoorW : ∀ a0 a1 a2 a3 a4, Statement (.amoorW a0 a1 a2 a3 a4) := fun _ _ _ _ _ => low_append _ _ (by decide)
theorem amominW : ∀ a0 a1 a2 a3 a4, Statement (.amominW a0 a1 a2 a3 a4) := fun _ _ _ _ _ => low_append _ _ (by decide)
theorem amomaxW : ∀ a0 a1 a2 a3 a4, Statement (.amomaxW a0 a1 a2 a3 a4) := fun _ _ _ _ _ => low_append _ _ (by decide)
theorem amominuW : ∀ a0 a1 a2 a3 a4, Statement (.amominuW a0 a1 a2 a3 a4) := fun _ _ _ _ _ => low_append _ _ (by decide)
theorem amomaxuW : ∀ a0 a1 a2 a3 a4, Statement (.amomaxuW a0 a1 a2 a3 a4) := fun _ _ _ _ _ => low_append _ _ (by decide)

end LowBits
end Laws
end Sys2Proof
end

