-- ==== Sys2Proof/Laws/Step.lean ====
section
/-! SUPPORT. What a step can do, said once: the inputs of the boundary, then a cycle made of the operations of
`Primitives` and the four ways a cycle changes the state by itself, then the timer. -/

namespace Sys2Proof
namespace Machine

/-- A word decoded from its bytes is the word decoded. -/
theorem decodeBytes_bytesOfWord (w : Word) :
    decodeBytes (bytesOfWord w) =
      match decode w with
      | .ok i => .ok (i, [])
      | .error e => .error e := by
  have h : wordOfBytes (w.extractLsb' 0 8) (w.extractLsb' 8 8) (w.extractLsb' 16 8) (w.extractLsb' 24 8) = w :=
    bytes_append w
  cases hd : decode w <;> simp only [bytesOfWord, decodeBytes, h, hd]

/-- What the decoder reads from a word's bytes it reads from the word. -/
theorem decode_of_bytes {w : Word} {i : Instr} {r : List Byte} (h : decodeBytes (bytesOfWord w) = .ok (i, r)) :
    decode w = .ok i := by
  rw [decodeBytes_bytesOfWord] at h
  split at h <;> cases h
  assumption

theorem mapNext_next {f : State → State} {o : Out} {t : State} (h : mapNext f o = .next t) :
    ∃ u, o = .next u ∧ t = f u := by
  cases o <;> cases h
  exact ⟨_, rfl, rfl⟩

/-- A step that answers is a cycle that answers, and the timer after it. -/
theorem step_next {s t : State} (h : step s = .next t) : ∃ u, cycle (deliver s) = .next u ∧ t = tick (deliver s) u :=
  mapNext_next h

/-- With no input to come the boundary changes nothing. -/
theorem deliver_nil {s : State} (h : s.inbox = []) : deliver s = s := by
  unfold deliver
  rw [h]

/-- A property kept by every input is kept by the inputs of a boundary. -/
theorem deliver_preserves {P : State → Prop} (h0 : ∀ (s : State) b, P s → P { s with inbox := b })
    (h : ∀ s i, P s → P (applyInput s i)) (s : State) (hs : P s) : P (deliver s) := by
  have hl : ∀ (l : List Input) (u : State), P u → P (l.foldl applyInput u) := by
    intro l
    induction l with
    | nil => exact fun u hu => hu
    | cons a l ih => exact fun u hu => ih _ (h u a hu)
  unfold deliver
  split
  · exact hs
  · exact hl _ _ (h0 _ _ hs)

/-- The end of a single step, in both cases. -/
theorem afterStep_cases (s : State) :
    (s.stepping = true ∧ s.mode = .M ∧ afterStep s = enterDebug 4 s.pc s) ∨
      (¬ (s.stepping = true ∧ s.mode = .M) ∧ afterStep s = s) := by
  by_cases h : s.stepping = true ∧ s.mode = .M <;> simp [afterStep, h]

/-- Following a loop leaves one only where there is one. -/
theorem followed_isSome {i : Instr} {s t : State} (h : (trackLoop i s t).scLoop.isSome = true) :
    t.scLoop.isSome = true := by
  unfold trackLoop at h
  cases hi : setsLoop i <;> cases ht : t.scLoop <;> simp_all

/-- Fetch, decoding and execution keep what the operations of `Primitives` and the following of loops keep. -/
theorem fetchDecodeExec_preserves {R : State → State → Prop} (p : ∀ w i, decode w = .ok i → Primitives i R)
    (track : ∀ (s : State) l, (l.isSome = true → s.scLoop.isSome = true) → R s { s with scLoop := l }) {s t : State} (h : fetchDecodeExec s = .next t) : R s t := by
  have q : Primitives .ecall R := p 0x73#32 _ rfl
  unfold fetchDecodeExec at h
  split at h
  · cases h
    exact q.raise _ _ _
  · split at h
    · cases h
      exact q.raise _ _ _
    · split at h
      · rename_i e
        obtain ⟨u, hu, rfl⟩ := mapNext_next h
        exact q.trans ((p _ _ (decode_of_bytes e)).exec hu) (track _ _ followed_isSome)
      · cases h
        exact q.raise _ _ _

/-- A cycle keeps what the operations of `Primitives`, the following of loops, a halt, the end of a single step, the
end of a wait and an interrupt's trap entry keep. -/
theorem cycle_preserves {R : State → State → Prop} (p : ∀ w i, decode w = .ok i → Primitives i R)
    (track : ∀ (s : State) l, (l.isSome = true → s.scLoop.isSome = true) → R s { s with scLoop := l })
    (halt : ∀ s : State, s.mode = .M → s.inReset = false → s.dm.haltreq = true → R s (enterDebug 3 s.pc s))
    (stepped : ∀ s : State, s.mode = .M → s.stepping = true → R s (enterDebug 4 s.pc s))
    (awake : ∀ s : State, R s { s with waiting := false })
    (interrupt : ∀ (s : State) c, s.mode = .M → R s (trapEntry true c 0 s.pc s))
    {s t : State} (h : cycle s = .next t) : R s t := by
  have q : Primitives .ecall R := p 0x73#32 _ rfl
  have hafter : ∀ u, R u (afterStep u) := by
    intro u
    rcases afterStep_cases u with ⟨h1, h2, e⟩ | ⟨-, e⟩ <;> rw [e]
    · exact stepped u h2 h1
    · exact q.refl u
  unfold cycle at h
  split at h
  · cases h
    exact q.refl _
  · rename_i hr
    split at h
    · rename_i hm
      unfold cycleM at h
      split at h
      · cases h
        exact halt s hm (by simpa using hr) ‹_›
      · split at h
        · cases h
          exact q.refl _
        · refine q.trans (awake s) ?_
          simp only at h
          split at h
          · cases h
            exact q.trans (interrupt _ _ hm) (hafter _)
          · obtain ⟨u, hu, rfl⟩ := mapNext_next h
            exact q.trans (fetchDecodeExec_preserves p track hu) (hafter u)
    · unfold cycleD at h
      split at h
      · cases h
        exact q.refl _
      · split at h
        · cases h
        · split at h
          · rename_i e
            exact (p _ _ (decode_of_bytes e)).exec h
          · cases h
            exact q.raise _ _ _

/-! ### Which cycle it is -/

theorem cycle_M {s : State} (hr : s.inReset = false) (hm : s.mode = .M) : cycle s = cycleM s := by
  unfold cycle
  rw [hr, hm]
  rfl

theorem cycle_D {s : State} (hr : s.inReset = false) (hm : s.mode = .D) : cycle s = cycleD s := by
  unfold cycle
  rw [hr, hm]
  rfl

theorem cycleM_halts {s : State} (h : s.dm.haltreq = true) : cycleM s = .next (enterDebug 3 s.pc s) := if_pos h

theorem cycleM_waits {s : State} (hh : s.dm.haltreq = false)
    (hw : (s.waiting && !s.wakes && !Config.wakeUp s.free) = true) : cycleM s = .next s := by
  unfold cycleM
  rw [hh, hw]
  rfl

/-- The hart starts: an interrupt if one is taken, otherwise the instruction at `pc`. -/
theorem cycleM_starts {s : State} (hh : s.dm.haltreq = false)
    (hw : (s.waiting && !s.wakes && !Config.wakeUp s.free) = false) :
    cycleM s =
      match State.interruptTaken { s with waiting := false } with
      | some code => .next (afterStep (takeInterrupt code { s with waiting := false }))
      | none => mapNext afterStep (fetchDecodeExec { s with waiting := false }) := by
  unfold cycleM
  rw [hh, hw]
  rfl

/-- The same at a boundary in the sense of `Running`. -/
theorem cycle_running {s : State} (h : Running s) :
    cycle s =
      match State.interruptTaken { s with waiting := false } with
      | some code => .next (afterStep (takeInterrupt code { s with waiting := false }))
      | none => mapNext afterStep (fetchDecodeExec { s with waiting := false }) := by
  rw [cycle_M h.reset h.mode]
  refine cycleM_starts h.halt ?_
  cases hw : s.waiting
  · rfl
  · have hk : s.wakes = true := by simpa [State.wakes, State.pendingEnabled] using h.wait hw
    rw [hk]
    rfl

/-! ### Interrupts -/

theorem pendingEnabled_eq (s : State) : s.pendingEnabled = s.mip &&& s.mie := rfl

/-- The bits of `mip` that are not those of an interrupt are 0. -/
theorem mip_bit {s : State} {k : Nat} (h : s.mip.getLsbD k = true) : k ∈ interruptCodes := by
  have hk : k < 32 := BitVec.lt_of_getLsbD h
  unfold State.mip at h
  simp only [BitVec.getLsbD_or, BitVec.getLsbD_shiftLeft, BitVec.getLsbD_setWidth] at h
  revert h
  interval_cases k <;> (first | (intro _; decide) | (cases s.mtip <;> cases s.msip <;> simp))

/-- An interrupt is ready exactly when `mip & mie` is not 0. -/
theorem readyCodes_nil (s : State) : s.readyCodes = [] ↔ s.mip &&& s.mie = 0 := by
  unfold State.readyCodes
  rw [List.filter_eq_nil_iff]
  constructor
  · intro h
    apply BitVec.eq_of_getLsbD_eq
    intro k _
    cases hb : (s.mip &&& s.mie).getLsbD k with
    | false => simp
    | true =>
      have hm : s.mip.getLsbD k = true := by
        rw [BitVec.getLsbD_and, Bool.and_eq_true] at hb
        exact hb.1
      exact absurd hb (h k (mip_bit hm))
  · intro h k _
    rw [pendingEnabled_eq, h]
    simp

/-- The interrupt chosen is a ready one, and there is one exactly when `mip & mie` is not 0. -/
theorem chosenInterrupt_cases (s : State) :
    (s.mip &&& s.mie = 0 ∧ s.chosenInterrupt = none) ∨
      (s.mip &&& s.mie ≠ 0 ∧
        ∃ k, s.chosenInterrupt = some k ∧ (s.mip &&& s.mie).getLsbD k = true ∧ k ∈ interruptCodes) := by
  have hin : ∀ k ∈ s.readyCodes, (s.mip &&& s.mie).getLsbD k = true ∧ k ∈ interruptCodes := fun k hk =>
    ⟨(List.mem_filter.mp hk).2, (List.mem_filter.mp hk).1⟩
  have hz := readyCodes_nil s
  unfold State.chosenInterrupt
  split
  · rename_i h
    exact .inl ⟨hz.mp h, rfl⟩
  · rename_i c h
    exact .inr ⟨fun h0 => by simp [hz.mpr h0] at h, c, rfl, hin c (by simp [h])⟩
  · rename_i c d cs h
    refine .inr ⟨fun h0 => by simp [hz.mpr h0] at h, _, rfl, hin _ ?_⟩
    have hlt : Config.pickInterrupt s.free % (cs.length + 2) < (c :: d :: cs).length := Nat.mod_lt _ (Nat.succ_pos _)
    rw [h, List.getD_eq_getElem _ _ hlt]
    exact List.getElem_mem _

end Machine
end Sys2Proof
end

