-- ==== Sys2Proof/Tests/Slice0.lean ====
section
/-! SUPPORT. Tests: ill-formed terms refused, a word of the spec decoded for every constructor, the spec's worked
examples run for one step, and for every statement with hypotheses a state and operands that meet them. -/

namespace Sys2Proof
namespace Tests
open Machine

/-! ### Well-formedness: an offset with bit 0 set has no encoding (30 R142, R144) -/

theorem test_ill_formed_jal : (Instr.jal 1 0x101).wellFormed = false := by decide
theorem test_ill_formed_beq : (Instr.beq 6 7 9).wellFormed = false := by decide
theorem test_ill_formed_bne : (Instr.bne 6 7 0x1FF9).wellFormed = false := by decide
theorem test_ill_formed_blt : (Instr.blt 6 7 1).wellFormed = false := by decide
theorem test_ill_formed_bge : (Instr.bge 6 7 3).wellFormed = false := by decide
theorem test_ill_formed_bltu : (Instr.bltu 6 7 5).wellFormed = false := by decide
theorem test_ill_formed_bgeu : (Instr.bgeu 6 7 7).wellFormed = false := by decide

/-! ### Decoding: the words of the spec's examples (40 to 45), written out there bit by bit -/

theorem test_decode_lui : decode 0xDEADC2B7#32 = .ok (.lui 5 0xDEADC) := by rfl
theorem test_decode_auipc : decode 0x00001297#32 = .ok (.auipc 5 1) := by rfl
theorem test_decode_jal : decode 0x100000EF#32 = .ok (.jal 1 0x100) := by rfl
theorem test_decode_jalr : decode 0x004300E7#32 = .ok (.jalr 1 6 4) := by rfl
theorem test_decode_beq : decode 0x00730463#32 = .ok (.beq 6 7 8) := by rfl
theorem test_decode_bne : decode 0xFE731CE3#32 = .ok (.bne 6 7 0x1FF8) := by rfl
theorem test_decode_blt : decode 0x00734663#32 = .ok (.blt 6 7 12) := by rfl
theorem test_decode_bge : decode 0x00735663#32 = .ok (.bge 6 7 12) := by rfl
theorem test_decode_bltu : decode 0x00736663#32 = .ok (.bltu 6 7 12) := by rfl
theorem test_decode_bgeu : decode 0x00737663#32 = .ok (.bgeu 6 7 12) := by rfl
theorem test_decode_lb : decode 0x00030283#32 = .ok (.lb 5 6 0) := by rfl
theorem test_decode_lh : decode 0x00231283#32 = .ok (.lh 5 6 2) := by rfl
theorem test_decode_lw : decode 0xFFC32283#32 = .ok (.lw 5 6 0xFFC) := by rfl
theorem test_decode_lbu : decode 0x00334283#32 = .ok (.lbu 5 6 3) := by rfl
theorem test_decode_lhu : decode 0x00235283#32 = .ok (.lhu 5 6 2) := by rfl
theorem test_decode_sb : decode 0x007300A3#32 = .ok (.sb 6 7 1) := by rfl
theorem test_decode_sh : decode 0x00731123#32 = .ok (.sh 6 7 2) := by rfl
theorem test_decode_sw : decode 0x80732023#32 = .ok (.sw 6 7 0x800) := by rfl
theorem test_decode_addi : decode 0xFFF30293#32 = .ok (.addi 5 6 0xFFF) := by rfl
theorem test_decode_slti : decode 0xFFF32293#32 = .ok (.slti 5 6 0xFFF) := by rfl
theorem test_decode_sltiu : decode 0x00133293#32 = .ok (.sltiu 5 6 1) := by rfl
theorem test_decode_xori : decode 0xFFF34293#32 = .ok (.xori 5 6 0xFFF) := by rfl
theorem test_decode_ori : decode 0x80036293#32 = .ok (.ori 5 6 0x800) := by rfl
theorem test_decode_andi : decode 0x0FF37293#32 = .ok (.andi 5 6 0xFF) := by rfl
theorem test_decode_slli : decode 0x00431293#32 = .ok (.slli 5 6 4) := by rfl
theorem test_decode_srli : decode 0x01F35293#32 = .ok (.srli 5 6 31) := by rfl
theorem test_decode_srai : decode 0x41F35293#32 = .ok (.srai 5 6 31) := by rfl
theorem test_decode_add : decode 0x007302B3#32 = .ok (.add 5 6 7) := by rfl
theorem test_decode_sub : decode 0x407302B3#32 = .ok (.sub 5 6 7) := by rfl
theorem test_decode_sll : decode 0x007312B3#32 = .ok (.sll 5 6 7) := by rfl
theorem test_decode_slt : decode 0x007322B3#32 = .ok (.slt 5 6 7) := by rfl
theorem test_decode_sltu : decode 0x007332B3#32 = .ok (.sltu 5 6 7) := by rfl
theorem test_decode_xor : decode 0x007342B3#32 = .ok (.xor 5 6 7) := by rfl
theorem test_decode_srl : decode 0x007352B3#32 = .ok (.srl 5 6 7) := by rfl
theorem test_decode_sra : decode 0x407352B3#32 = .ok (.sra 5 6 7) := by rfl
theorem test_decode_or : decode 0x007362B3#32 = .ok (.or 5 6 7) := by rfl
theorem test_decode_and : decode 0x007372B3#32 = .ok (.and 5 6 7) := by rfl
theorem test_decode_fence : decode 0x0FF0000F#32 = .ok (.fence 0 15 15 0 0) := by rfl
theorem test_decode_fenceI : decode 0x0000100F#32 = .ok (.fenceI 0 0 0) := by rfl
theorem test_decode_ecall : decode 0x00000073#32 = .ok .ecall := by rfl
theorem test_decode_ebreak : decode 0x00100073#32 = .ok .ebreak := by rfl
theorem test_decode_csrrw : decode 0x30029373#32 = .ok (.csrrw 6 0x300 5) := by rfl
theorem test_decode_csrrs : decode 0x3042A373#32 = .ok (.csrrs 6 0x304 5) := by rfl
theorem test_decode_csrrc : decode 0x3002B373#32 = .ok (.csrrc 6 0x300 5) := by rfl
theorem test_decode_csrrwi : decode 0x305FD2F3#32 = .ok (.csrrwi 5 0x305 31) := by rfl
theorem test_decode_csrrsi : decode 0xF140E073#32 = .ok (.csrrsi 0 0xF14 1) := by rfl
theorem test_decode_csrrci : decode 0x300472F3#32 = .ok (.csrrci 5 0x300 8) := by rfl
theorem test_decode_mret : decode 0x30200073#32 = .ok .mret := by rfl
theorem test_decode_wfi : decode 0x10500073#32 = .ok .wfi := by rfl
theorem test_decode_dret : decode 0x7B200073#32 = .ok .dret := by rfl
theorem test_decode_lrW : decode 0x140322AF#32 = .ok (.lrW true false 5 6) := by rfl
theorem test_decode_scW : decode 0x1A7322AF#32 = .ok (.scW false true 5 6 7) := by rfl
theorem test_decode_amoswapW : decode 0x087322AF#32 = .ok (.amoswapW false false 5 6 7) := by rfl
theorem test_decode_amoaddW : decode 0x067322AF#32 = .ok (.amoaddW true true 5 6 7) := by rfl
theorem test_decode_amoxorW : decode 0x207322AF#32 = .ok (.amoxorW false false 5 6 7) := by rfl
theorem test_decode_amoandW : decode 0x607322AF#32 = .ok (.amoandW false false 5 6 7) := by rfl
theorem test_decode_amoorW : decode 0x407322AF#32 = .ok (.amoorW false false 5 6 7) := by rfl
theorem test_decode_amominW : decode 0x807322AF#32 = .ok (.amominW false false 5 6 7) := by rfl
theorem test_decode_amomaxW : decode 0xA07322AF#32 = .ok (.amomaxW false false 5 6 7) := by rfl
theorem test_decode_amominuW : decode 0xC07322AF#32 = .ok (.amominuW false false 5 6 7) := by rfl
theorem test_decode_amomaxuW : decode 0xE07322AF#32 = .ok (.amomaxuW false false 5 6 7) := by rfl

/-- Reserved words are refused by name: the all-zero word, LR.W with rs2 not 0 (30 R164), SLLI with funct7 of SRAI,
RV64's LWU, an unlisted SYSTEM word. -/
theorem test_refused_words :
    decode 0#32 = .error .opcode ∧ decode 0x101322AF#32 = .error .loadReservedRs2 ∧
    decode 0x40431293#32 = .error .funct7 ∧ decode 0x00036283#32 = .error .funct3 ∧
    decode 0x10200073#32 = .error .system ∧ decode 0x187322AB#32 = .error .opcode ∧
    decode 0x1073302F#32 = .error .funct3 ∧ decode 0x2873202F#32 = .error .funct5 :=
  ⟨rfl, rfl, rfl, rfl, rfl, rfl, rfl, rfl⟩

/-- Three bytes are no instruction; the fifth byte is left over. -/
theorem test_decode_bytes :
    decodeBytes [0x73, 0, 0] = .error .tooShort ∧ decodeBytes [0x73, 0, 0, 0, 9] = .ok (.ecall, [9]) := ⟨rfl, rfl⟩

/-- The table's own numbering of bits. -/
theorem test_decode_table_word : decodeTableWord 32 0x00733023 = none ∧ decodeTableWord 32 0x73 = some .ecall := by
  decide

/-! ### One step on small states: the spec's worked examples -/

/-- The reset state at `pc` 0x1000, `mtvec` 0x80, with t1 and t2 (and t0) set. -/
def st (t1 t2 : Word) (t0 : Word := 0) : State :=
  { ((State.reset.setReg 6 t1).setReg 7 t2).setReg 5 t0 with pc := 0x1000, mtvec := 0x80 }

/-- `st` with t1 = 0x2000 and a word at 0x2000. -/
def memSt (w t2 : Word) : State := { st 0x2000 t2 with mem := Memory.store [] .word 0x2000 w }

/-- `st` halted, with the hart running the first word of the program buffer. -/
def dbg : State := { st 7 8 with mode := .D, dpc := 0x3000, dm := { State.reset.dm with pbIndex := some 0 } }

/-- A field of the next state, if there is one. -/
def get {α : Type} (f : State → α) : Out → Option α
  | .next s => some (f s)
  | .fault _ => none
  | .refused _ => none

theorem test_lui : get (fun s => s.getReg 5) (exec (.lui 5 0xFFFFF) (st 0 0)) = some 0xFFFFF000#32 := by decide
theorem test_auipc : get (fun s => s.getReg 5) (exec (.auipc 5 0xFFFFF) { st 0 0 with pc := 0x1008 }) = some 0x00000008#32 := by decide
theorem test_addi : get (fun s => s.getReg 5) (exec (.addi 5 6 0x7FF) (st 0x7FFFFFFF 0)) = some 0x800007FE#32 := by decide
theorem test_addi_x0 : get (fun s => (s.getReg 0, s.pc)) (exec (.addi 0 6 5) (st 1 0)) = some (0#32, 0x1004#32) := by decide
theorem test_slti : get (fun s => s.getReg 5) (exec (.slti 5 6 0xFFF) (st 0xFFFFFFFE 0)) = some 1#32 := by decide
theorem test_sltiu : get (fun s => s.getReg 5) (exec (.sltiu 5 6 0xFFF) (st 5 0)) = some 1#32 := by decide
theorem test_xori : get (fun s => s.getReg 5) (exec (.xori 5 6 0xFFF) (st 0x12345678 0)) = some 0xEDCBA987#32 := by decide
theorem test_ori : get (fun s => s.getReg 5) (exec (.ori 5 6 0x800) (st 0x12345678 0)) = some 0xFFFFFE78#32 := by decide
theorem test_andi : get (fun s => s.getReg 5) (exec (.andi 5 6 0xFF) (st 0x12345678 0)) = some 0x78#32 := by decide
theorem test_slli : get (fun s => s.getReg 5) (exec (.slli 5 6 31) (st 3 0)) = some 0x80000000#32 := by decide
theorem test_srli : get (fun s => s.getReg 5) (exec (.srli 5 6 4) (st 0x87654321 0)) = some 0x08765432#32 := by decide
theorem test_srai : get (fun s => s.getReg 5) (exec (.srai 5 6 4) (st 0x87654321 0)) = some 0xF8765432#32 := by decide
theorem test_add : get (fun s => s.getReg 6) (exec (.add 6 6 7) (st 0x7FFFFFFF 1)) = some 0x80000000#32 := by decide
theorem test_sub : get (fun s => s.getReg 5) (exec (.sub 5 6 7) (st 3 5)) = some 0xFFFFFFFE#32 := by decide
theorem test_sll : get (fun s => s.getReg 5) (exec (.sll 5 6 7) (st 1 0x21)) = some 2#32 := by decide
theorem test_slt : get (fun s => s.getReg 5) (exec (.slt 5 6 7) (st 0x80000000 0x7FFFFFFF)) = some 1#32 := by decide
theorem test_sltu : get (fun s => s.getReg 5) (exec (.sltu 5 6 7) (st 0x80000000 0x7FFFFFFF)) = some 0#32 := by decide
theorem test_xor : get (fun s => s.getReg 5) (exec (.xor 5 6 7) (st 0x0F0F0F0F 0x00FF00FF)) = some 0x0FF00FF0#32 := by decide
theorem test_srl : get (fun s => s.getReg 5) (exec (.srl 5 6 7) (st 0x80000000 0x1F)) = some 1#32 := by decide
theorem test_sra : get (fun s => s.getReg 5) (exec (.sra 5 6 7) (st 0x80000000 0x1F)) = some 0xFFFFFFFF#32 := by decide
theorem test_or : get (fun s => s.getReg 5) (exec (.or 5 6 7) (st 0x0F0F0F0F 0x00FF00FF)) = some 0x0FFF0FFF#32 := by decide
theorem test_and : get (fun s => s.getReg 5) (exec (.and 5 6 7) (st 0x0F0F0F0F 0x00FF00FF)) = some 0x000F000F#32 := by decide
theorem test_jal : get (fun s => (s.getReg 1, s.pc)) (exec (.jal 1 0x100) (st 0 0)) = some (0x1004#32, 0x1100#32) := by decide
theorem test_jal_misaligned : get (fun s => (s.getReg 1, s.mepc, s.mtval, s.pc)) (exec (.jal 1 2) (st 0 0)) = some (0#32, 0x1000#32, 0x1002#32, 0x80#32) := by decide
theorem test_jalr_same_register : get (fun s => (s.getReg 6, s.pc)) (exec (.jalr 6 6 4) (st 0x2000 0)) = some (0x1004#32, 0x2004#32) := by decide
theorem test_jalr_misaligned : get (fun s => (s.getReg 1, s.mcause, s.mtval)) (exec (.jalr 1 6 0xFFF) (st 0x2004 0)) = some (0#32, 0#32, 0x2002#32) := by decide
theorem test_beq : get (fun s => s.pc) (exec (.beq 6 7 8) (st 7 7)) = some 0x1008#32 := by decide
theorem test_beq_not_taken : get (fun s => s.pc) (exec (.beq 6 7 2) (st 7 8)) = some 0x1004#32 := by decide
theorem test_bne : get (fun s => s.pc) (exec (.bne 6 7 0x1FF8) { st 1 0 with pc := 0x1008 }) = some 0x1000#32 := by decide
theorem test_blt : get (fun s => s.pc) (exec (.blt 6 7 12) (st 0xFFFFFFFF 1)) = some 0x100C#32 := by decide
theorem test_bge : get (fun s => s.pc) (exec (.bge 6 7 12) (st 0xFFFFFFFF 1)) = some 0x1004#32 := by decide
theorem test_bge_equal : get (fun s => s.pc) (exec (.bge 6 7 12) (st 1 1)) = some 0x100C#32 := by decide
theorem test_bltu : get (fun s => s.pc) (exec (.bltu 6 7 12) (st 0xFFFFFFFF 1)) = some 0x1004#32 := by decide
theorem test_bgeu : get (fun s => s.pc) (exec (.bgeu 6 7 12) (st 0xFFFFFFFF 1)) = some 0x100C#32 := by decide
theorem test_lb : get (fun s => s.getReg 5) (exec (.lb 5 6 0) (memSt 0x80 0)) = some 0xFFFFFF80#32 := by decide
theorem test_lh : get (fun s => s.getReg 5) (exec (.lh 5 6 2) (memSt 0x8765C321 0)) = some 0xFFFF8765#32 := by decide
theorem test_lh_misaligned : get (fun s => (s.mcause, s.mtval, s.getReg 5)) (exec (.lh 5 6 1) (memSt 0x8765C321 0)) = some (4#32, 0x2001#32, 0#32) := by decide
theorem test_lw : get (fun s => s.getReg 5) (exec (.lw 5 6 0xFFC) { st 0x2000 0 with mem := Memory.store [] .word 0x1FFC 0xCAFEBABE }) = some 0xCAFEBABE#32 := by decide
theorem test_lw_misaligned : get (fun s => (s.mcause, s.mtval)) (exec (.lw 5 6 2) (memSt 1 0)) = some (4#32, 0x2002#32) := by decide
theorem test_lbu : get (fun s => s.getReg 5) (exec (.lbu 5 6 3) (memSt 0x8765C321 0)) = some 0x87#32 := by decide
theorem test_lhu : get (fun s => s.getReg 5) (exec (.lhu 5 6 2) (memSt 0x8765C321 0)) = some 0x8765#32 := by decide
theorem test_sb : get (fun s => Memory.load s.mem .word 0x2000) (exec (.sb 6 7 1) (memSt 0x11223344 0xAABBCCDD)) = some 0x1122DD44#32 := by decide
theorem test_sh : get (fun s => Memory.load s.mem .word 0x2000) (exec (.sh 6 7 2) (memSt 0x11223344 0xAABBCCDD)) = some 0xCCDD3344#32 := by decide
theorem test_sh_misaligned : get (fun s => (s.mcause, s.mtval, s.mem == (memSt 0x11223344 0).mem)) (exec (.sh 6 7 3) (memSt 0x11223344 0xAABBCCDD)) = some (6#32, 0x2003#32, true) := by decide
theorem test_sw : get (fun s => s.mem) (exec (.sw 6 7 0) (st 0x2000 0xAABBCCDD)) = some [(0x2000, 0xDD), (0x2001, 0xCC), (0x2002, 0xBB), (0x2003, 0xAA)] := by decide
theorem test_sw_zero_unlists : get (fun s => s.mem) (exec (.sw 6 7 0) (memSt 0xAABBCCDD 0)) = some [] := by decide
theorem test_fence : get (fun s => s.pc) (exec (.fence 0 15 15 0 0) (st 0 0)) = some 0x1004#32 := by decide
theorem test_fenceI : get (fun s => (s.pc, s.stale)) (exec (.fenceI 0 0 0) { st 0 0 with stale := [(0x1004, 1)] }) = some (0x1004#32, []) := by decide
theorem test_fenceI_absent : get (fun s => (s.mcause, s.mtval)) (exec (.fenceI 0 0 0) { st 0 0 with cfg := { Config.standard with hasZifencei := false } }) = some (2#32, 0x100F#32) := by decide
theorem test_ecall : get (fun s => (s.mepc, s.mcause, s.mtval, s.mstatus, s.pc)) (exec (.ecall) { st 0 0 with mstatus := 0x1808 }) = some (0x1000#32, 11#32, 0#32, 0x1880#32, 0x80#32) := by decide
theorem test_ebreak : get (fun s => (s.mepc, s.mcause, s.pc)) (exec (.ebreak) { st 0 0 with pc := 0x1004 }) = some (0x1004#32, 3#32, 0x80#32) := by decide
theorem test_ebreak_halts : get (fun s => (s.dpc, s.dcsr, s.mode)) (exec (.ebreak) { st 0 0 with dcsr := 0x40008003 }) = some (0x1000#32, 0x40008043#32, Mode.D) := by decide
theorem test_csrrw : get (fun s => (s.getReg 6, s.mstatus)) (exec (.csrrw 6 0x300 5) (st 0 0 0xFFFFFFFF)) = some (0x1800#32, 0x1888#32) := by decide
theorem test_csrrw_read_only : get (fun s => (s.mcause, s.mtval)) (exec (.csrrw 0 0xF14 5) (st 0 0 0xFFFFFFFF)) = some (2#32, 0xF1429073#32) := by decide
theorem test_csrrs : get (fun s => (s.getReg 6, s.mie)) (exec (.csrrs 6 0x304 5) (st 9 0 0xFFFFFFFF)) = some (0#32, 0xFFFF0088#32) := by decide
theorem test_csrrs_unimplemented : get (fun s => (s.mcause, s.mtval)) (exec (.csrrs 5 0x340 0) (st 0 0)) = some (2#32, 0x340022F3#32) := by decide
theorem test_csrrc : get (fun s => (s.getReg 6, s.mstatus)) (exec (.csrrc 6 0x300 5) { st 0 0 8 with mstatus := 0x1888 }) = some (0x1888#32, 0x1880#32) := by decide
theorem test_csrrwi : get (fun s => (s.getReg 5, s.mtvec)) (exec (.csrrwi 5 0x305 31) (st 0 0)) = some (0x80#32, 0x1C#32) := by decide
theorem test_csrrwi_vectored : get (fun s => s.mtvec) (exec (.csrrwi 5 0x305 31) { st 0 0 with cfg := { Config.standard with vectored := true } }) = some 0x1D#32 := by decide
theorem test_csrrsi : get (fun s => s.mstatus) (exec (.csrrsi 0 0x300 8) (st 0 0)) = some 0x1808#32 := by decide
theorem test_csrrsi_no_write : get (fun s => (s.getReg 5, s.pc)) (exec (.csrrsi 5 0xF14 0) (st 0 0 1)) = some (0#32, 0x1004#32) := by decide
theorem test_csrrci : get (fun s => (s.getReg 5, s.mstatus)) (exec (.csrrci 5 0x300 8) { st 0 0 with mstatus := 0x1808 }) = some (0x1808#32, 0x1800#32) := by decide
theorem test_csr_dcsr_in_m_mode : get (fun s => (s.mcause, s.mtval)) (exec (.csrrs 5 0x7B0 0) (st 0 0)) = some (2#32, 0x7B0022F3#32) := by decide
theorem test_mret : get (fun s => (s.pc, s.mstatus)) (exec (.mret) { st 0 0 with mepc := 0x2000, mstatus := 0x1880 }) = some (0x2000#32, 0x1888#32) := by decide
theorem test_mret_mpie_clear : get (fun s => s.mstatus) (exec (.mret) { st 0 0 with mstatus := 0x1808 }) = some 0x1880#32 := by decide
theorem test_wfi : get (fun s => (s.pc, s.waiting)) (exec (.wfi) (st 0 0)) = some (0x1004#32, true) := by decide
theorem test_dret_in_m_mode : get (fun s => (s.mcause, s.mtval)) (exec (.dret) (st 0 0)) = some (2#32, 0x7B200073#32) := by decide
theorem test_dret : get (fun s => (s.pc, s.mode, s.dm.pbIndex)) (exec (.dret) dbg) = some (0x3000#32, Mode.M, none) := by decide
theorem test_lrW : get (fun s => (s.getReg 5, s.reservation)) (exec (.lrW true false 5 6) (memSt 0x2A 0)) = some (0x2A#32, some 0x2000#32) := by decide
theorem test_scW_fails : get (fun s => (s.getReg 5, Memory.load s.mem .word 0x2000)) (exec (.scW false false 5 6 7) (memSt 0x2A 0x2B)) = some (1#32, 0x2A#32) := by decide
theorem test_amoswapW : get (fun s => (s.getReg 5, Memory.load s.mem .word 0x2000)) (exec (.amoswapW false false 5 6 7) (memSt 0x11111111 0x22222222)) = some (0x11111111#32, 0x22222222#32) := by decide
theorem test_amoaddW : get (fun s => (s.getReg 5, Memory.load s.mem .word 0x2000)) (exec (.amoaddW true true 5 6 7) (memSt 0xFFFFFFFF 2)) = some (0xFFFFFFFF#32, 1#32) := by decide
theorem test_amoaddW_same_register : get (fun s => (s.getReg 6, Memory.load s.mem .word 0x2000)) (exec (.amoaddW false false 6 6 6) (memSt 1 0)) = some (1#32, 0x2001#32) := by decide
theorem test_amoxorW : get (fun s => (s.getReg 5, Memory.load s.mem .word 0x2000)) (exec (.amoxorW false false 5 6 7) (memSt 0x0F0F0F0F 0x00FF00FF)) = some (0x0F0F0F0F#32, 0x0FF00FF0#32) := by decide
theorem test_amoandW : get (fun s => (s.getReg 5, Memory.load s.mem .word 0x2000)) (exec (.amoandW false false 5 6 7) (memSt 0x0F0F0F0F 0x00FF00FF)) = some (0x0F0F0F0F#32, 0x000F000F#32) := by decide
theorem test_amoorW : get (fun s => (s.getReg 5, Memory.load s.mem .word 0x2000)) (exec (.amoorW false false 5 6 7) (memSt 0x0F0F0F0F 0x00FF00FF)) = some (0x0F0F0F0F#32, 0x0FFF0FFF#32) := by decide
theorem test_amominW : get (fun s => (s.getReg 5, Memory.load s.mem .word 0x2000)) (exec (.amominW false false 5 6 7) (memSt 0x80000000 1)) = some (0x80000000#32, 0x80000000#32) := by decide
theorem test_amomaxW : get (fun s => (s.getReg 5, Memory.load s.mem .word 0x2000)) (exec (.amomaxW false false 5 6 7) (memSt 0x80000000 1)) = some (0x80000000#32, 1#32) := by decide
theorem test_amominuW : get (fun s => (s.getReg 5, Memory.load s.mem .word 0x2000)) (exec (.amominuW false false 5 6 7) (memSt 0x80000000 1)) = some (0x80000000#32, 1#32) := by decide
theorem test_amomaxuW : get (fun s => (s.getReg 5, Memory.load s.mem .word 0x2000)) (exec (.amomaxuW false false 5 6 7) (memSt 0x80000000 1)) = some (0x80000000#32, 0x80000000#32) := by decide
theorem test_amo_misaligned : get (fun s => (s.mcause, s.mtval)) (exec (.amoaddW false false 5 6 7) (st 0x2002 0)) = some (6#32, 0x2002#32) := by decide

/-- The spec's example of a timer interrupt (60 R425). -/
theorem test_interrupt :
    get (fun s => (s.mepc, s.mcause, s.mtval, s.mstatus, s.pc))
      (cycle { st 0 0 with
        pc := 0x1010, mstatus := 0x1808, mie := 0x80, mtvec := 0x100, mtime := 100, mtimecmp := 100 }) =
      some (0x1010#32, 0x80000007#32, 0#32, 0x1880#32, 0x100#32) := by decide

/-- The same with the line `irq[2]` (60 R425). -/
theorem test_interrupt_line :
    get (fun s => (s.mip, s.mcause))
      (cycle { st 0 0 with mstatus := 0x1808, mie := 0x00040000, mtimecmp := 1, irq := 4 }) =
      some (0x00040000#32, 0x80000012#32) := by decide

/-- A word stored to the timer module and `mip` after it (60 R458). -/
theorem test_timer_store :
    get (fun s => (s.msip, s.mip)) (exec (.sw 6 7 16) { st 0x10000 1 with mtimecmp := 1 }) =
      some (true, 8#32) := by decide

/-- From the program buffer: an exception ends it with `cmderr` 3 and no trap (60 R476). -/
theorem test_debug_exception :
    get (fun s => (s.mode, s.mcause, s.dm.cmderr, s.dm.pbIndex)) (exec (.lw 5 6 0) dbg) =
      some (Mode.D, 0#32, 3#3, none) := by decide

/-- The Access Register command reads t1 into `data0` (60 R478). -/
theorem test_command_read :
    (applyInput { dbg with dm := { dbg.dm with pbIndex := none } } (.command 0x00221006)).dm.data0 = 7#32 := by decide

/-- The boot sequence's first word runs as the first step after reset (70 R511). -/
theorem test_first_step :
    get (fun s => (s.getReg 5, s.pc)) (step (State.reset.withFetchWord 32 0x10000293)) =
      some (0x100#32, 4#32) := by decide

/-- What is remembered of a store for later fetches: the old value of each word it falls into (20 R118). -/
theorem test_store_remembers :
    get (fun s => s.stale) (exec (.sb 6 7 1) (memSt 0x11223344 0xDD)) =
      some [(0x1FFE, 0x33440000#32), (0x1FFF, 0x22334400#32), (0x2000, 0x11223344#32), (0x2001, 0x00112233#32)] := by
  decide

/-- The two ports' maps two cells apart: a word store changes half of an instruction word, whose old value is
remembered (20 R103, R118; 43 R282). -/
theorem test_store_remembers_across_maps :
    get (fun s => (s.stale.contains (4, 0x11223344#32), Memory.load s.mem .word 4))
      (exec (.sw 6 7 0) { st 0 0xAABBCCDD with
        mem := Memory.store [] .word 4 0x11223344
        cfg := { Config.standard with
          imap := [{ base := 0, size := 0x100, cell := 0 }]
          dmap := [{ base := 0, size := 0x100, target := .memory 2 }] } }) = some (true, 0x1122AABB#32) := by decide

/-- In a constrained loop with no spurious failure left SC.W stores; with one left it fails (45 R322, R335). -/
theorem test_scW_constrained :
    let s := fun n => { memSt 0x2A 0x2B with
      reservation := some 0x2000, scLoop := some { start := 0x1000, phase := .trying, left := some n } }
    get (fun s => (s.getReg 5, Memory.load s.mem .word 0x2000)) (exec (.scW false false 5 6 7) (s 0)) =
        some (0#32, 0x2B#32) ∧
      get (fun s => (s.getReg 5, Memory.load s.mem .word 0x2000)) (exec (.scW false false 5 6 7) (s 1)) =
        some (1#32, 0x2A#32) := by decide

/-- A constrained loop is followed over 16 instructions and back by a branch; a load ends it (45 R335). -/
theorem test_loop_followed :
    let l : ScLoop := { start := 0x1000, phase := .trying, left := some 3 }
    l.follow (.addi 5 5 1) 0x1038 0x103C = some l ∧ l.follow (.addi 5 5 1) 0x103C 0x1040 = none ∧
      l.follow (.lw 5 6 0) 0x1004 0x1008 = none ∧
      { l with phase := .failed }.follow (.bne 5 0 0x1FF8) 0x1008 0x1000 = some { l with phase := .retrying } := by
  decide

/-- A loop interrupted after its failed SC.W goes on after the return, its failures counted; an interrupt between LR.W
and SC.W ends it (45 R335). -/
theorem test_loop_interrupted :
    let l : ScLoop := { start := 0x1000, phase := .failed, left := some 3 }
    let t := trapEntry true 7#31 0 0x1008 { st 0 0 with scLoop := some l }
    t.scLoop = none ∧ t.scParked = [(0x1008, l)] ∧ (trapReturn t).scLoop = some l ∧ (trapReturn t).scParked = [] ∧
      (trapEntry true 7#31 0 0x1008 { st 0 0 with scLoop := some { l with phase := .trying } }).scParked = [] := by decide

/-- A step that begins in M-mode advances `mtime` by at least 1 though `dcsr`.stoptime is set (60 R452). -/
theorem test_tick_from_m_mode : tickAmount { st 0 0 with dcsr := 0x40000203 } = Config.tick 0 + 1 := rfl

/-- `haltsum0` of a halted and of a running hart, and an unimplemented register (60 R480). -/
theorem test_debug_module_reads :
    dbg.dmRead 0x40 = 1#32 ∧ (st 0 0).dmRead 0x40 = 0#32 ∧ dbg.dmRead 0x12 = 0#32 := by decide

/-! ### Witnesses: states and operands that meet the hypotheses of the statements, clause by clause -/

/-- The state an instruction leads to, or the state itself where it stops. -/
def after (i : Instr) (s : State) : State := (get id (exec i s)).getD s

/-- Reset with this word where the first step fetches. -/
def fresh (w : Word) : State := State.reset.withFetchWord 32 w.toNat

/-- `st` with an empty data map: nothing answers. -/
def bare : State := { st 0x2000 7 with cfg := { Config.standard with dmap := [] } }

/-- `st` with a device on the data port. -/
def devSt (t1 : Word) : State :=
  { st t1 0xAABBCCDD with
    cfg := { Config.standard with dmap := [{ base := 0x4000, size := 16, target := .device 3 }] } }

/-- `fresh` owing a single step. -/
def stepSt (w : Word) : State := { fresh w with stepping := true }

/-- `st` halted, the program buffer not running. -/
def halted : State := { dbg with dm := { dbg.dm with pbIndex := none } }

theorem fresh_running (w : Word) : Running (deliver (fresh w)) :=
  ⟨rfl, rfl, rfl, fun h => by cases h⟩

theorem fresh_quiet (w : Word) : NoInterrupt (deliver (fresh w)) := by
  have h : (deliver (fresh w)).mstatus = 0x1800#32 := rfl
  exact .inl (by rw [h]; decide)

theorem witness_DecodeAfterEncode :
    (Instr.bne 5 6 0x1000).wellFormed = true ∧ (Instr.jal 0 0x100000).wellFormed = true ∧
      (Instr.jal 0 0x0FFFFE).wellFormed = true := by decide

theorem witness_EncodeAfterDecode : decode 0xFE62AE23#32 = .ok (.sw 5 6 0xFFC) := rfl

theorem witness_DecoderAcceptsExactlyTheTable :
    (∃ r ∈ opcodeRows, r.selects 0x007302B3#32 = true) ∧ ∀ r ∈ opcodeRows, r.selects 0#32 = false := by decide

theorem witness_NoWordMatchesTwoRows :
    ∃ r ∈ opcodeRows, ∃ q ∈ opcodeRows, r.selects 0x00100073#32 = true ∧ q.selects 0x00100073#32 = true := by decide

theorem witness_StepRunsTheDecodedInstruction :
    Running (deliver (fresh 0x007302B3)) ∧ NoInterrupt (deliver (fresh 0x007302B3)) ∧
      (deliver (fresh 0x007302B3)).pc.toNat % 4 = 0 ∧
      FetchesCurrent (deliver (fresh 0x007302B3)) (deliver (fresh 0x007302B3)).pc 0 ∧
      decodeBytes
        [Memory.read (deliver (fresh 0x007302B3)).mem 0, Memory.read (deliver (fresh 0x007302B3)).mem 1,
          Memory.read (deliver (fresh 0x007302B3)).mem 2, Memory.read (deliver (fresh 0x007302B3)).mem 3] =
        .ok (.add 5 6 7, []) :=
  ⟨fresh_running _, fresh_quiet _, by decide, ⟨by decide, by decide⟩, by rfl⟩

theorem witness_StepRunsTheProgramBuffer :
    let s := dbg.withFetchWord 32 0x007302B3
    (deliver s).inReset = false ∧ (deliver s).mode = .D ∧ (deliver s).dm.pbIndex = some 0 ∧
      (deliver s).dm.progbuf[0]? = some 0x007302B3#32 ∧ decode 0x007302B3#32 = .ok (.add 5 6 7) :=
  ⟨rfl, rfl, rfl, rfl, rfl⟩

theorem witness_UnlistedWordTraps :
    (∀ r ∈ opcodeRows, r.selects 0xFFFFFFFF#32 = false) ∧
    (Running (deliver (fresh 0xFFFFFFFF)) ∧ NoInterrupt (deliver (fresh 0xFFFFFFFF)) ∧
      (deliver (fresh 0xFFFFFFFF)).pc.toNat % 4 = 0 ∧
      fetch (deliver (fresh 0xFFFFFFFF)) (deliver (fresh 0xFFFFFFFF)).pc = some 0xFFFFFFFF#32) ∧
    (let s := dbg.withFetchWord 32 0xFFFFFFFF;
      (deliver s).inReset = false ∧ (deliver s).mode = .D ∧ (deliver s).dm.pbIndex = some 0 ∧
        (deliver s).dm.progbuf[0]? = some 0xFFFFFFFF#32) :=
  ⟨by decide, ⟨fresh_running _, fresh_quiet _, by decide, by decide⟩, rfl, rfl, rfl, rfl⟩

/-- A `pc` of 2, and a `pc` just beyond the end of the instruction map. -/
theorem witness_FetchSideTraps :
    (∃ s : State, Running (deliver s) ∧ NoInterrupt (deliver s) ∧ (deliver s).pc.toNat % 4 ≠ 0) ∧
    (∃ s : State, Running (deliver s) ∧ NoInterrupt (deliver s) ∧ (deliver s).pc.toNat % 4 = 0 ∧
      fetchCell (deliver s).cfg.imap (deliver s).pc.toNat = none) :=
  ⟨⟨{ State.reset with pc := 2 }, ⟨rfl, rfl, rfl, fun h => by cases h⟩, .inl rfl, by decide⟩,
    ⟨{ State.reset with
        pc := 0x100, cfg := { Config.standard with imap := [{ base := 0, size := 0x100, cell := 0 }] } },
      ⟨rfl, rfl, rfl, fun h => by cases h⟩, .inl rfl, by decide, by decide⟩⟩

theorem witness_UpperImmediateResults : (st 0 0).mode = .M := rfl

/-- JAL's target and JALR's sum and target, both landing, and both not. -/
theorem witness_JumpsLinkAndGo :
    (st 0x2000 0).mode = .M ∧
    IsSum 0x1100 (st 0x2000 0).pc (0x100 : BitVec 21).toInt ∧ Lands (st 0x2000 0) 0x1100 ∧
    IsSum 0x1002 (st 0x2000 0).pc (2 : BitVec 21).toInt ∧ ¬ Lands (st 0x2000 0) 0x1002 ∧
    IsSum 0x1FFF ((st 0x2000 0).getReg 6) (0xFFF : BitVec 12).toInt ∧
    (0x1FFE#32).toNat = (0x1FFF#32).toNat / 2 * 2 ∧ ¬ Lands (st 0x2000 0) 0x1FFE ∧
    IsSum 0x2004 ((st 0x2000 0).getReg 6) (4 : BitVec 12).toInt ∧ (0x2004#32).toNat = (0x2004#32).toNat / 2 * 2 := by
  refine ⟨rfl, ?_, ?_, ?_, ?_, ?_, ?_, ?_, ?_, ?_⟩ <;> (try unfold IsSum) <;> (try unfold Lands) <;> decide

/-- Equal operands, -1 against 1, and an offset of each kind. -/
theorem witness_BranchesCompareAndGo :
    (st 7 7).mode = .M ∧ (st 7 7).getReg 6 = (st 7 7).getReg 7 ∧
    ((st 0xFFFFFFFF 1).getReg 6).toInt < ((st 0xFFFFFFFF 1).getReg 7).toInt ∧
    ((st 0xFFFFFFFF 1).getReg 7).toNat ≤ ((st 0xFFFFFFFF 1).getReg 6).toNat ∧
    IsSum 0x0FF8 (st 7 7).pc (0x1FF8 : BitVec 13).toInt ∧ Lands (st 7 7) 0x0FF8 ∧
    IsSum 0x1002 (st 7 7).pc (2 : BitVec 13).toInt ∧ ¬ Lands (st 7 7) 0x1002 := by
  refine ⟨rfl, rfl, ?_, ?_, ?_, ?_, ?_, ?_⟩ <;> (try unfold IsSum) <;> (try unfold Lands) <;> decide

theorem witness_ProgramBufferPcForms : dbg.mode = .D := rfl

/-- The first and the last address a byte, a halfword and a word can have. -/
theorem witness_LoadsFromStorage :
    ReachesStorage (st 0 0) ((st 0 0).effectiveAddress 6 0) 0 ∧
    ReachesStorage (st 0 0) ((st 0 0).effectiveAddress 6 0xFFF) 0xFFFFFFFF ∧
    ReachesStorage (st 0 0) ((st 0 0).effectiveAddress 6 0xFFE) 0xFFFFFFFE ∧
    ((st 0 0).effectiveAddress 6 0xFFE).toNat % 2 = 0 ∧
    ReachesStorage (st 0 0) ((st 0 0).effectiveAddress 6 0xFFC) 0xFFFFFFFC ∧
    ((st 0 0).effectiveAddress 6 0xFFC).toNat % 4 = 0 := by
  unfold ReachesStorage
  decide

/-- The first and the last address a byte, a halfword and a word can have. -/
theorem witness_StoresToStorage :
    ReachesStorage (st 0 9) ((st 0 9).effectiveAddress 6 0) 0 ∧
    ReachesStorage (st 0 9) ((st 0 9).effectiveAddress 6 0xFFF) 0xFFFFFFFF ∧
    ReachesStorage (st 0 9) ((st 0 9).effectiveAddress 6 0xFFE) 0xFFFFFFFE ∧
    ((st 0 9).effectiveAddress 6 0xFFE).toNat % 2 = 0 ∧
    ReachesStorage (st 0 9) ((st 0 9).effectiveAddress 6 0xFFC) 0xFFFFFFFC ∧
    ((st 0 9).effectiveAddress 6 0xFFC).toNat % 4 = 0 := by
  unfold ReachesStorage
  decide

theorem witness_MisalignedAccessesTrap :
    ((st 0x2000 0).effectiveAddress 6 1).toNat % 2 ≠ 0 ∧ ((st 0x2000 0).effectiveAddress 6 2).toNat % 4 ≠ 0 ∧
      ((st 0x2000 0).effectiveAddress 6 3).toNat % 4 ≠ 0 ∧ ((st 0x2003 0).getReg 6).toNat % 4 ≠ 0 := by decide

theorem witness_UnmappedAccessesTrap :
    Unmapped bare (bare.effectiveAddress 6 1) ∧ Unmapped bare (bare.effectiveAddress 6 2) ∧
      (bare.effectiveAddress 6 2).toNat % 2 = 0 ∧ Unmapped bare (bare.effectiveAddress 6 4) ∧
      (bare.effectiveAddress 6 4).toNat % 4 = 0 ∧ Unmapped bare (bare.getReg 6) ∧ (bare.getReg 6).toNat % 4 = 0 := by
  unfold Unmapped
  decide

/-- The first and the last byte, halfword and word of the device. -/
theorem witness_DeviceAccessesAreSeenOnce :
    dataAnswer (devSt 0x4000).cfg.dmap ((devSt 0x4000).effectiveAddress 6 0).toNat = .device 3 ∧
    dataAnswer (devSt 0x4000).cfg.dmap ((devSt 0x4000).effectiveAddress 6 15).toNat = .device 3 ∧
    dataAnswer (devSt 0x4000).cfg.dmap ((devSt 0x4000).effectiveAddress 6 14).toNat = .device 3 ∧
    ((devSt 0x4000).effectiveAddress 6 14).toNat % 2 = 0 ∧
    dataAnswer (devSt 0x4000).cfg.dmap ((devSt 0x4000).effectiveAddress 6 12).toNat = .device 3 ∧
    ((devSt 0x4000).effectiveAddress 6 12).toNat % 4 = 0 ∧
    (0xDD#32).toNat = ((devSt 0x4000).getReg 7).toNat % 2 ^ 8 ∧
    (0xCCDD#32).toNat = ((devSt 0x4000).getReg 7).toNat % 2 ^ 16 := by decide

/-- The atomics on the last word of the device, the SC.W with its reservation. -/
theorem witness_DeviceAccessesAreSeenOnce_atomics :
    let s := { devSt 0x400C with
      reservation := some 0x400C, scLoop := some { start := 0x1000, phase := .trying, left := some 0 } }
    dataAnswer s.cfg.dmap (s.getReg 6).toNat = .device 3 ∧ (s.getReg 6).toNat % 4 = 0 ∧ ScStores s (s.getReg 6) := by
  unfold ScStores
  decide

/-- A state whose t1 is `a`, with a timer module of eight words, an SC.W to `a` about to store, and this module. -/
def timerSt (a : Word) : State :=
  { st a 0xFFFFFFFF with
    cfg := { Config.standard with dmap := [{ base := 0x10000, size := 32, target := .timer }] }
    mtime := 5, mtimecmp := 6, msip := true
    reservation := some a, scLoop := some { start := 0x1000, phase := .trying, left := some 0 } }

/-- Each of the five words of the module, the first and the last as an operand. -/
theorem witness_TimerWordLoads :
    let s := timerSt 0x10000
    (∀ a ∈ [0x10000#32, 0x10004#32, 0x10008#32, 0x1000C#32, 0x10010#32], OnTimerWord s a) ∧
      s.effectiveAddress 6 0 = 0x10000 ∧ s.effectiveAddress 6 16 = 0x10010 ∧ s.getReg 6 = 0x10000 ∧
      (timerSt 0x10010).getReg 6 = 0x10010 := by
  refine ⟨fun a h => ⟨?_, by decide, ?_, ?_⟩, rfl, rfl, rfl, rfl⟩ <;> fin_cases h <;> decide

/-- The first and the last byte, halfword and word of the module beyond the five. -/
theorem witness_TimerWordLoads_beyond :
    let s := timerSt 0x10014
    (∀ a ∈ [0x10000#32, 0x1001F#32, 0x1001E#32, 0x10014#32, 0x1001C#32],
      dataAnswer s.cfg.dmap a.toNat = .timer) ∧
    (∀ a ∈ [0x10014#32, 0x1001C#32], a.toNat % 4 = 0 ∧ a ∉ timerAddrs s.cfg) ∧
    s.effectiveAddress 6 0xFEC = 0x10000 ∧ s.effectiveAddress 6 11 = 0x1001F ∧ s.effectiveAddress 6 10 = 0x1001E ∧
    s.effectiveAddress 6 0 = 0x10014 ∧ s.effectiveAddress 6 8 = 0x1001C ∧ s.getReg 6 = 0x10014 :=
  ⟨fun a h => by fin_cases h <;> decide, fun a h => by fin_cases h <;> decide, rfl, rfl, rfl, rfl, rfl, rfl⟩

/-- What an SC.W needs besides, on the first and last of the five words and beyond them. -/
theorem witness_TimerWordStores :
    ScStores (timerSt 0x10000) ((timerSt 0x10000).getReg 6) ∧ ScStores (timerSt 0x10010) ((timerSt 0x10010).getReg 6) ∧
      ScStores (timerSt 0x1001C) ((timerSt 0x1001C).getReg 6) := by
  unfold ScStores
  exact ⟨by decide, by decide, by decide⟩

/-- SW at 0x2000 and its parts, the first and the last. -/
theorem witness_MixedWidthReadback_word :
    let s := st 0x2000 0xAABBCCDD
    let a := s.effectiveAddress 6 0
    let t := after (.sw 6 7 0) s
    a.toNat % 4 = 0 ∧ (∀ k < 4, ReachesStorage s (a + BitVec.ofNat 32 k) (0x2000 + k)) ∧
      exec (.sw 6 7 0) s = .next t ∧ t.effectiveAddress 6 0 = a + BitVec.ofNat 32 0 ∧
      t.effectiveAddress 6 3 = a + BitVec.ofNat 32 3 ∧ t.effectiveAddress 6 2 = a + 2 := by
  refine ⟨by decide, ?_, rfl, by decide, by decide, by decide⟩
  unfold ReachesStorage
  decide

/-- Four SB at 0x2000 to 0x2003, then LW. -/
theorem witness_MixedWidthReadback_bytes :
    let s0 := st 0x2000 0xAABBCCDD
    let s1 := after (.sb 6 7 0) s0
    let s2 := after (.sb 6 6 1) s1
    let s3 := after (.sb 6 7 2) s2
    let s4 := after (.sb 6 7 3) s3
    (0x2000#32).toNat % 4 = 0 ∧ (∀ k < 4, ReachesStorage s0 (0x2000 + BitVec.ofNat 32 k) (0x2000 + k)) ∧
      s0.effectiveAddress 6 0 = 0x2000 ∧ exec (.sb 6 7 0) s0 = .next s1 ∧
      s1.effectiveAddress 6 1 = 0x2000 + 1 ∧ exec (.sb 6 6 1) s1 = .next s2 ∧
      s2.effectiveAddress 6 2 = 0x2000 + 2 ∧ exec (.sb 6 7 2) s2 = .next s3 ∧
      s3.effectiveAddress 6 3 = 0x2000 + 3 ∧ exec (.sb 6 7 3) s3 = .next s4 ∧
      s4.effectiveAddress 6 0 = 0x2000 := by
  refine ⟨by decide, ?_, by decide, rfl, by decide, rfl, by decide, rfl, by decide, rfl, by decide⟩
  unfold ReachesStorage
  decide

/-- HAS_ZIFENCEI true, with a word remembered for the cell fetched, and false. -/
theorem witness_FenceIDropsEarlyWords :
    (∃ s : State, s.cfg.hasZifencei = true ∧ s.stale ≠ [] ∧ fetchCell s.cfg.imap (0x2000#32).toNat = some 0x2000) ∧
      ∃ s : State, s.cfg.hasZifencei = false :=
  ⟨⟨after (.sw 6 7 0) (memSt 1 2), by decide⟩,
    ⟨{ State.reset with cfg := { Config.standard with hasZifencei := false } }, rfl⟩⟩

theorem witness_FetchGivesOldOrNewWord :
    fetchCell (fresh 5).cfg.imap (0#32).toNat = some 0 ∧ fetch (fresh 5) 0 = some 5#32 := by decide

theorem witness_StoredCodeIsSeenAfterFenceI :
    let s := memSt 1 2
    (s.effectiveAddress 6 0).toNat % 4 = 0 ∧ ReachesStorage s (s.effectiveAddress 6 0) 0x2000 ∧
      fetchCell s.cfg.imap (0x2000#32).toNat = some 0x2000 ∧ fetchCell s.cfg.imap (0x2004#32).toNat = some 0x2004 ∧
      exec (.sw 6 7 0) s = .next (after (.sw 6 7 0) s) ∧ s.stale = [] ∧ s.cfg.hasZifencei = true := by
  refine ⟨by decide, ?_, by decide, by decide, rfl, rfl, rfl⟩
  unfold ReachesStorage
  decide

theorem witness_EcallTraps : (st 0 0).mode = .M ∧ dbg.mode = .D := ⟨rfl, rfl⟩

theorem witness_EbreakHaltsTrapsOrEndsTheBuffer :
    (∃ s : State, s.mode = .M ∧ s.dcsr.getLsbD 15 = true) ∧ (∃ s : State, s.mode = .M ∧ s.dcsr.getLsbD 15 = false) ∧
      dbg.mode = .D :=
  ⟨⟨{ st 0 0 with dcsr := 0x40008003 }, by decide⟩, ⟨st 0 0, by decide⟩, rfl⟩

theorem witness_MretReturns : (st 0 0).mode = .M := rfl

theorem witness_MretUndoesTrapEntry :
    (st 0 0).mode = .M ∧ (0x1010#32).toNat % 4 = 0 ∧
      Traps true 7 0 0x1010 (st 0 0) (trapEntry true 7#31 0 0x1010 (st 0 0)) ∧
      ∃ s : State, s.mode = .M ∧ s.scLoop = some { start := 0x1000, phase := .failed, left := some 3 } :=
  ⟨rfl, rfl, trapEntry_traps true 7#31 0 0x1010 (st 0 0),
    { st 0 0 with scLoop := some { start := 0x1000, phase := .failed, left := some 3 } }, rfl, rfl⟩

/-- M-mode, D-mode, a wait with nothing pending and enabled, and a wait with the timer pending and enabled. -/
theorem witness_WfiMayWait :
    (st 0 0).mode = .M ∧ dbg.mode = .D ∧
    (let s := { st 0 0 with waiting := true };
      s.inbox = [] ∧ s.inReset = false ∧ s.mode = .M ∧ s.dm.haltreq = false ∧ s.waiting = true ∧
        s.mip &&& s.mie = 0) ∧
    (let s := { st 0 0 with waiting := true, mie := 0x80 };
      s.inbox = [] ∧ s.inReset = false ∧ s.mode = .M ∧ s.dm.haltreq = false ∧ s.waiting = true ∧
        s.mip &&& s.mie ≠ 0) := by decide

theorem witness_DretAndResumeLeaveDebugMode :
    halted.mode = .D ∧ (st 0 0).mode = .M ∧ halted.inReset = false ∧ halted.dm.hartsel = 0 ∧
      halted.dm.pbIndex = none := by decide

/-- A CSR that may be written, an ID register read without a write, a debug CSR in D-mode. -/
theorem witness_CsrRegisterForms :
    CsrAllowed (st 0 0) 0x300 True ∧ CsrAllowed (st 0 0) 0xF14 ((0 : RegNum) ≠ 0) ∧
      CsrAllowed (st 0 0) 0x344 ((6 : RegNum) ≠ 0) ∧ CsrAllowed dbg 0x7B1 True := by
  unfold CsrAllowed
  decide

/-- The same for the immediate forms. -/
theorem witness_CsrImmediateForms :
    CsrAllowed (st 0 0) 0x300 True ∧ CsrAllowed (st 0 0) 0xF11 ((0 : BitVec 5) ≠ 0) ∧
      CsrAllowed (st 0 0) 0x305 ((31 : BitVec 5) ≠ 0) ∧ CsrAllowed dbg 0x7B0 True := by
  unfold CsrAllowed
  decide

/-- An unimplemented CSR, a debug CSR in M-mode, an ID register written. -/
theorem witness_CsrIllegalAccesses :
    ¬ CsrAllowed (st 0 0) 0x340 True ∧ ¬ CsrAllowed (st 0 0) 0x7B0 ((0 : RegNum) ≠ 0) ∧
      ¬ CsrAllowed (st 0 0) 0xF14 ((1 : BitVec 5) ≠ 0) := by
  unfold CsrAllowed
  decide

theorem witness_LoadReservedReserves :
    ((memSt 0x2A 0).getReg 6).toNat % 4 = 0 ∧ ReachesStorage (memSt 0x2A 0) ((memSt 0x2A 0).getReg 6) 0x2000 := by
  unfold ReachesStorage
  decide

/-- No reservation; one outside a constrained loop; attempts of a constrained loop with no failure left, with two left
and, nothing answering, with none left; a step that keeps the loop. -/
theorem witness_StoreConditionalStoresOrFails :
    let loop := fun n => ({ start := 0, phase := .trying, left := some n } : ScLoop)
    let held := { memSt 1 2 with reservation := some 0x2000 }
    let bareHeld := { bare with reservation := some 0x2000, scLoop := some (loop 0) }
    (held.getReg 6).toNat % 4 = 0 ∧ (memSt 1 2).reserves ((memSt 1 2).getReg 6) = false ∧
    (held.reserves (held.getReg 6) = true ∧ held.scLoop = none) ∧
    ({ held with scLoop := some (loop 0) }.scLoop = some (loop 0) ∧ (loop 0).phase = .trying ∧
      held.reservation = some (held.getReg 6) ∧ (loop 0).left = some 0 ∧ (loop 2).left = some (1 + 1) ∧
      dataAnswer held.cfg.dmap (held.getReg 6).toNat = .memory 0x2000) ∧
    (bareHeld.reservation = some (bareHeld.getReg 6) ∧ dataAnswer bareHeld.cfg.dmap (bareHeld.getReg 6).toNat = .fault) ∧
    get (fun t => t.scLoop) (step { fresh 0x13 with scLoop := some (loop 2) }) = some (some (loop 2)) := by decide

/-- A retry: the branch back, the LR.W it leads to, a loop to be kept and one to be dropped. -/
theorem witness_StoreConditionalStoresOrFails_retry :
    let loop := fun p => ({ start := 0, phase := p, left := some 2 } : ScLoop)
    let s := { fresh 0x140322AF with scLoop := some (loop .retrying) }
    (deliver s).mode = .M ∧ (deliver s).scLoop = some (loop .retrying) ∧
    fetch (deliver s) (deliver s).pc = some 0x140322AF#32 ∧ decode 0x140322AF#32 = .ok (.lrW true false 5 6) ∧
    get (fun t => t.scLoop) (step s) = some (some (loop .trying)) ∧
    ((8#32 - 0#32).toNat < 64 ∧ ((loop .failed).start - 0#32).toNat ≤ (8#32 - 0#32).toNat) ∧
    (loop .failed).phase ≠ .trying := by
  refine ⟨by decide, by decide, by decide, rfl, by decide, by decide, by decide⟩

theorem witness_AtomicMemoryOperationResults :
    ((st 0xFFFFFFFC 1).getReg 6).toNat % 4 = 0 ∧
      ReachesStorage (st 0xFFFFFFFC 1) ((st 0xFFFFFFFC 1).getReg 6) 0xFFFFFFFC := by
  unfold ReachesStorage
  decide

theorem witness_OnlyLoadReservedReserves :
    exec (.lrW false false 5 6) (memSt 1 0) = .next (after (.lrW false false 5 6) (memSt 1 0)) := rfl

/-- An interrupt pending and enabled with MIE set, and with MIE clear. -/
theorem witness_InterruptTakenExactlyWhen :
    (∃ s : State, Running (deliver s) ∧ (deliver s).stepping = false ∧ (deliver s).mstatus.getLsbD 3 = true ∧
      (deliver s).mip &&& (deliver s).mie ≠ 0) ∧
    (∃ s : State, Running (deliver s) ∧ (deliver s).stepping = false ∧
      ¬ ((deliver s).mstatus.getLsbD 3 = true ∧ (deliver s).mip &&& (deliver s).mie ≠ 0)) :=
  ⟨⟨{ st 0 0 with mstatus := 0x1808, mie := 0x80 }, ⟨rfl, rfl, rfl, fun h => by cases h⟩, rfl, rfl, by decide⟩,
    ⟨{ st 0 0 with mie := 0x80 }, ⟨rfl, rfl, rfl, fun h => by cases h⟩, rfl, by decide⟩⟩

/-- A halt request delivered at the boundary wins over a wait and an interrupt. -/
theorem witness_HaltRequestWins :
    let s := { st 0 0 with inbox := [[.haltreq true]], waiting := true, mstatus := 0x1808, mie := 0x80 }
    (deliver s).inReset = false ∧ (deliver s).mode = .M ∧ (deliver s).dm.haltreq = true := by decide

/-- One step owed: an instruction that goes on, and an interrupt with `dcsr`.stepie set. -/
theorem witness_SingleStepHaltsAfterOneStep :
    (∃ s t : State, Running (deliver s) ∧ (deliver s).stepping = true ∧ NoInterrupt (deliver s) ∧
      fetchDecodeExec { deliver s with waiting := false } = .next t ∧ t.mode = .M) ∧
    (∃ s : State, Running (deliver s) ∧ (deliver s).stepping = true ∧ ¬ NoInterrupt (deliver s)) :=
  ⟨⟨stepSt 0x007302B3, _, ⟨rfl, rfl, rfl, fun h => by cases h⟩, rfl, .inl rfl, rfl, rfl⟩,
    ⟨{ st 0 0 with stepping := true, dcsr := 0x40000803, mstatus := 0x1808, mie := 0x80 },
      ⟨rfl, rfl, rfl, fun h => by cases h⟩, rfl, by unfold NoInterrupt; decide⟩⟩

theorem witness_HaltedHartIdles :
    (deliver halted).inReset = false ∧ (deliver halted).mode = .D ∧ (deliver halted).dm.pbIndex = none ∧
      (deliver halted).dcsr.getLsbD 9 = false := by decide

theorem witness_DebugModeKeepsTrapRegisters :
    dbg.mode = .D ∧ exec .dret dbg = .next (after .dret dbg) ∧
      ∀ rd n r, Instr.dret ≠ .csrrw rd n r ∧ Instr.dret ≠ .csrrs rd n r ∧ Instr.dret ≠ .csrrc rd n r ∧
        Instr.dret ≠ .csrrwi rd n r ∧ Instr.dret ≠ .csrrsi rd n r ∧ Instr.dret ≠ .csrrci rd n r :=
  ⟨rfl, rfl, fun _ _ _ => ⟨nofun, nofun, nofun, nofun, nofun, nofun⟩⟩

/-- Each of the three ways. -/
theorem witness_StepsFromMModeIntoDebugMode :
    (let s := { fresh 0x13 with inbox := [[.haltreq true]] };
      (deliver s).mode = .M ∧ get (fun t => t.mode) (step s) = some .D) ∧
    (let s := { fresh 0x00100073 with dcsr := 0x40008003 };
      (deliver s).mode = .M ∧ get (fun t => t.mode) (step s) = some .D) ∧
    (deliver (stepSt 0x13)).mode = .M ∧ get (fun t => t.mode) (step (stepSt 0x13)) = some .D := by decide

/-- Both sides: a step that answers, the end of the buffer, and the three words. -/
theorem witness_StopsOnlyInTheProgramBuffer :
    get (fun t => t.mcause) (step (fresh 0x73)) = some 11 ∧
    step { dbg with dm := { dbg.dm with pbIndex := some 16 } } = .fault .programBufferEnd ∧
    step (dbg.withFetchWord 32 0x73) = .refused .ecallInDebugMode ∧
    step (dbg.withFetchWord 32 0x30200073) = .refused .mretInDebugMode ∧
    step (dbg.withFetchWord 32 0x10500073) = .refused .wfiInDebugMode :=
  ⟨by decide, rfl, rfl, rfl, rfl⟩

/-- An earlier error; another command type; a running hart; the program buffer running; another hart selected; reset. -/
theorem witness_AbstractCommandRejections :
    ({ halted with dm := { halted.dm with cmderr := 3 } } : State).dm.cmderr ≠ 0 ∧
    (halted.dm.cmderr = 0 ∧ (0x01000000#32).toNat / 2 ^ 24 ≠ 0) ∧
    ((st 0 0).dm.cmderr = 0 ∧ (0x00221006#32).toNat / 2 ^ 24 = 0 ∧ (st 0 0).dm.pbIndex = none ∧
      (st 0 0).mode = .M) ∧
    (dbg.dm.cmderr = 0 ∧ dbg.dm.pbIndex ≠ none) ∧
    ({ halted with dm := { halted.dm with hartsel := 1 } } : State).dm.hartsel ≠ 0 ∧ halted.dm.pbIndex = none ∧
    State.powerOn.inReset = true ∧ State.powerOn.dm.pbIndex = none := by decide

/-- A transfer of 64 bits, CSR 0x340 and register 0x1020, of a halted hart. -/
theorem witness_AbstractCommandRejections_transfer :
    (halted.dm.cmderr = 0 ∧ halted.dm.pbIndex = none ∧ halted.mode = .D ∧ halted.inReset = false ∧
      halted.dm.hartsel = 0) ∧
    ((0x00321006#32).toNat / 2 ^ 24 = 0 ∧ (0x00321006#32).getLsbD 17 = true ∧
      (0x00321006#32).toNat / 2 ^ 20 % 8 ≠ 2) ∧
    ((0x00220340#32).toNat / 2 ^ 24 = 0 ∧ (0x00220340#32).getLsbD 17 = true ∧
      (∀ n ∈ csrNumbers, (0x00220340#32).toNat % 2 ^ 16 ≠ n.toNat) ∧
      ¬ (0x1000 ≤ (0x00220340#32).toNat % 2 ^ 16 ∧ (0x00220340#32).toNat % 2 ^ 16 < 0x1020)) ∧
    ((0x00221020#32).toNat / 2 ^ 24 = 0 ∧ (0x00221020#32).getLsbD 17 = true ∧
      (∀ n ∈ csrNumbers, (0x00221020#32).toNat % 2 ^ 16 ≠ n.toNat) ∧
      ¬ (0x1000 ≤ (0x00221020#32).toNat % 2 ^ 16 ∧ (0x00221020#32).toNat % 2 ^ 16 < 0x1020)) :=
  ⟨by decide, by decide, ⟨by decide, by decide, by simp [csrNumbers], by decide⟩,
    ⟨by decide, by decide, by simp [csrNumbers], by decide⟩⟩

/-- No transfer, with the increment and the start of the buffer. -/
theorem witness_AbstractCommandTransfers_none :
    (0x000C1000#32).toNat / 2 ^ 24 = 0 ∧ (0x000C1000#32).getLsbD 17 = false ∧ (0x000C1000#32).getLsbD 18 = true ∧
      (0x000C1000#32).getLsbD 19 = true := by decide

/-- A read of x0, a write of x31 with the increment and the start of the buffer, a read and a write of `dpc`. -/
theorem witness_AbstractCommandTransfers :
    (halted.dm.cmderr = 0 ∧ halted.dm.pbIndex = none ∧ halted.mode = .D ∧ halted.inReset = false ∧
      halted.dm.hartsel = 0) ∧
    ((0x00221000#32).toNat / 2 ^ 24 = 0 ∧ (0x00221000#32).getLsbD 17 = true ∧ (0x00221000#32).getLsbD 16 = false ∧
      (0x00221000#32).toNat / 2 ^ 20 % 8 = 2 ∧ (0x00221000#32).toNat % 2 ^ 16 = 0x1000 + (0 : RegNum).toNat) ∧
    ((0x002F101F#32).toNat / 2 ^ 24 = 0 ∧ (0x002F101F#32).getLsbD 17 = true ∧ (0x002F101F#32).getLsbD 16 = true ∧
      (0x002F101F#32).getLsbD 18 = true ∧ (0x002F101F#32).getLsbD 19 = true ∧
      (0x002F101F#32).toNat / 2 ^ 20 % 8 = 2 ∧ (0x002F101F#32).toNat % 2 ^ 16 = 0x1000 + (31 : RegNum).toNat) ∧
    ((0x002207B1#32).toNat / 2 ^ 24 = 0 ∧ (0x002207B1#32).getLsbD 17 = true ∧ (0x002207B1#32).getLsbD 16 = false ∧
      (0x002207B1#32).toNat / 2 ^ 20 % 8 = 2 ∧ (0x002207B1#32).toNat % 2 ^ 16 = (0x7B1 : CsrNum).toNat) ∧
    ((0x002307B1#32).getLsbD 16 = true ∧ (0x7B1 : CsrNum) ∈ csrNumbers ∧ csrOfNum 0x7B1 = some .dpc) := by decide

theorem witness_DebugModuleRegistersAndCmderr :
    dbg.mode = .D ∧ exec (.lw 5 6 0) dbg = .next (after (.lw 5 6 0) dbg) ∧ dbg.dm.progbuf[15]? = some 0#32 ∧
      (0x1F ∉ [0x04, 0x10, 0x11, 0x16, 0x17, 0x40] ∧ 0x1F < 0x20) ∧ 0x30 ∉ [0x04, 0x10, 0x11, 0x16, 0x17, 0x40] :=
  ⟨rfl, rfl, rfl, by decide, by decide⟩

theorem witness_ResetLeaves :
    State.powerOn.inReset = true ∧ State.powerOn.dm.resetHaltReq = false ∧ (1 : RegNum) ≠ 0 := by decide

theorem witness_ArmedResetHalts :
    (let s := { State.powerOn with dm := { State.powerOn.dm with resetHaltReq := true } };
      s.inReset = true ∧ s.dm.resetHaltReq = true) ∧
    State.powerOn.inReset = true ∧ State.powerOn.dm.resetHaltReq = false := by decide

theorem witness_TimerAdvancesEveryStep : (deliver (fresh 0x13)).mode = .M ∧ get (fun t => t.pc) (step (fresh 0x13)) = some 4 := by decide

theorem witness_StepKeepsLegalStates : Legal (memSt 0x2A 0) ∧ get (fun t => t.mcause) (step (memSt 0x2A 0)) = some 2 :=
  ⟨⟨by decide, ⟨by decide, by decide, by decide, by decide, by decide, by decide, by decide⟩,
    ⟨by decide, by decide, by decide, by decide, by decide⟩⟩, by decide⟩

theorem witness_StepKeepsInstructionAddressesAligned : PcLegal (st 0 0) ∧ get (fun t => t.pc) (step (st 0 0)) = some 0x80 :=
  ⟨by unfold PcLegal; decide, by decide⟩

theorem witness_StepKeepsParameters : (fresh 0x13).inbox = [] ∧ get (fun t => t.pc) (step (fresh 0x13)) = some 4 :=
  ⟨rfl, by decide⟩

end Tests
end Sys2Proof
end

section
/-! SUPPORT. One equation for each way a cycle can begin: the branches of `fetchDecodeExec` and of `cycleD`, and the
step at a boundary where the hart starts the instruction at `pc` (00_scope R14; 60 R476). -/

namespace Sys2Proof
namespace Machine

/-- Two bookkeeping functions in a row are one. -/
theorem mapNext_mapNext (f g : State → State) (o : Out) : mapNext g (mapNext f o) = mapNext (fun t => g (f t)) o := by
  cases o <;> rfl

/-! ### The instruction at `pc` -/

/-- A misaligned `pc` is not fetched from (20 R96). -/
theorem fetchDecodeExec_misaligned {s : State} (h : s.pc.toNat % 4 ≠ 0) :
    fetchDecodeExec s = .next (raise .instructionAddressMisaligned s.pc s) :=
  if_pos (by simpa [misalignedTarget] using h)

/-- The instruction port answers with an error (20 R97). -/
theorem fetchDecodeExec_fetchFault {s : State} (h : s.pc.toNat % 4 = 0) (hf : fetch s s.pc = none) :
    fetchDecodeExec s = .next (raise .instructionAccessFault s.pc s) := by
  simp [fetchDecodeExec, misalignedTarget_false.mpr h, hf]

/-- The word fetched stands for an instruction. -/
theorem fetchDecodeExec_decoded {s : State} {w : Word} {i : Instr} (h : s.pc.toNat % 4 = 0)
    (hf : fetch s s.pc = some w) (hd : decode w = .ok i) :
    fetchDecodeExec s = mapNext (trackLoop i s) (exec i s) := by
  simp [fetchDecodeExec, misalignedTarget_false.mpr h, hf, decodeBytes_bytesOfWord, hd]

/-- The word fetched stands for no instruction (30 R160). -/
theorem fetchDecodeExec_unlisted {s : State} {w : Word} {e : DecodeError} (h : s.pc.toNat % 4 = 0)
    (hf : fetch s s.pc = some w) (hd : decode w = .error e) :
    fetchDecodeExec s = .next (raise .illegalInstruction w s) := by
  simp [fetchDecodeExec, misalignedTarget_false.mpr h, hf, decodeBytes_bytesOfWord, hd]

/-! ### Fetches -/

/-- A fetch fails exactly where no region of the instruction port's map holds the address (20 R97, R103). -/
theorem fetch_eq_none {s : State} {a : Word} : fetch s a = none ↔ fetchCell s.cfg.imap a.toNat = none :=
  Option.map_eq_none_iff

/-- Where nothing has been stored since the last FENCE.I, a fetch gives what storage holds (20 R118). -/
theorem fetch_current {s : State} {a : Word} {c : Nat} (h : FetchesCurrent s a c) :
    fetch s a = some (wordAt s.mem c) := by
  obtain ⟨hc, hstale⟩ := h
  have hw : staleWords s.stale c = [] := by
    unfold staleWords
    rw [List.map_eq_nil_iff, List.filter_eq_nil_iff]
    exact fun p hp => by simpa using hstale p hp
  rw [fetch, hc, Option.map_some, fetchWord, hw]
  rfl

/-- Four bytes decode to what the word they make decodes to. -/
theorem decode_wordOfBytes {b0 b1 b2 b3 : Byte} {i : Instr} {r : List Byte}
    (h : decodeBytes [b0, b1, b2, b3] = .ok (i, r)) : decode (wordOfBytes b0 b1 b2 b3) = .ok i := by
  cases hd : decode (wordOfBytes b0 b1 b2 b3) <;> simp_all [decodeBytes]

/-! ### The program buffer -/

theorem cycleD_idle {s : State} (h : s.dm.pbIndex = none) : cycleD s = .next s := by
  rw [cycleD, h]

theorem cycleD_pastEnd {s : State} {k : Nat} (h : s.dm.pbIndex = some k) (hw : s.dm.progbuf[k]? = none) :
    cycleD s = .fault .programBufferEnd := by
  simp only [cycleD, h, hw]

theorem cycleD_decoded {s : State} {k : Nat} {w : Word} {i : Instr} (h : s.dm.pbIndex = some k)
    (hw : s.dm.progbuf[k]? = some w) (hd : decode w = .ok i) : cycleD s = exec i s := by
  simp only [cycleD, h, hw, decodeBytes_bytesOfWord, hd]

theorem cycleD_unlisted {s : State} {k : Nat} {w : Word} {e : DecodeError} (h : s.dm.pbIndex = some k)
    (hw : s.dm.progbuf[k]? = some w) (hd : decode w = .error e) :
    cycleD s = .next (raise .illegalInstruction w s) := by
  simp only [cycleD, h, hw, decodeBytes_bytesOfWord, hd]

/-! ### The step at a boundary where an instruction starts -/

/-- `NoInterrupt` says what it is to say of the model's own interrupt logic (60 R422, R473). -/
theorem interruptTaken_eq_none {s : State} (h : NoInterrupt s) : s.interruptTaken = none := by
  unfold State.interruptTaken
  rcases h with hmie | hpending | ⟨hstep, hstepie⟩
  · rw [State.mstatusMIE, hmie]
    rfl
  · rcases chosenInterrupt_cases s with ⟨-, hnone⟩ | ⟨hne, -⟩
    · rw [hnone, ite_self]
    · exact absurd hpending hne
  · rw [State.dcsrStepie, hstep, hstepie, Bool.not_true, Bool.or_false, Bool.and_false]
    rfl

/-- Where no halt, no wait and no interrupt comes first, the cycle is the instruction at `pc` (00_scope R14). -/
theorem cycle_startsInstruction {s : State} (hr : Running s) (hn : NoInterrupt s) :
    cycle s = mapNext afterStep (fetchDecodeExec { s with waiting := false }) := by
  have hquiet : State.interruptTaken { s with waiting := false } = none := interruptTaken_eq_none hn
  rw [cycle_running hr, hquiet]

theorem cycle_misaligned {s : State} (hr : Running s) (hn : NoInterrupt s) (h : s.pc.toNat % 4 ≠ 0) :
    cycle s = .next (afterStep (raise .instructionAddressMisaligned s.pc { s with waiting := false })) := by
  rw [cycle_startsInstruction hr hn, fetchDecodeExec_misaligned (s := { s with waiting := false }) h]
  rfl

theorem cycle_fetchFault {s : State} (hr : Running s) (hn : NoInterrupt s) (h : s.pc.toNat % 4 = 0)
    (hf : fetchCell s.cfg.imap s.pc.toNat = none) :
    cycle s = .next (afterStep (raise .instructionAccessFault s.pc { s with waiting := false })) := by
  have hfetch : fetch { s with waiting := false } s.pc = none := fetch_eq_none.mpr hf
  rw [cycle_startsInstruction hr hn, fetchDecodeExec_fetchFault (s := { s with waiting := false }) h hfetch]
  rfl

theorem cycle_decoded {s : State} {c : Nat} {i : Instr} (hr : Running s) (hn : NoInterrupt s)
    (h : s.pc.toNat % 4 = 0) (hf : FetchesCurrent s s.pc c) (hd : decode (wordAt s.mem c) = .ok i) :
    cycle s =
      mapNext (fun t => afterStep (trackLoop i { s with waiting := false } t))
        (exec i { s with waiting := false }) := by
  have hfetch : fetch { s with waiting := false } s.pc = some (wordAt s.mem c) := fetch_current hf
  rw [cycle_startsInstruction hr hn, fetchDecodeExec_decoded (s := { s with waiting := false }) h hfetch hd,
    mapNext_mapNext]

end Machine
end Sys2Proof
end

section
/-! The fetch side of a step (00_scope R14; 20_memory R96, R97). -/

namespace Sys2Proof
namespace Machine

/-- Settles O6: the cycle is `cycle_decoded`, and the step adds the timer's advance. -/
theorem stepRunsTheDecodedInstruction : Obligations.StepRunsTheDecodedInstruction := by
  intro s i c hr hn hpc hf hd
  rw [step, cycle_decoded hr hn hpc hf (decode_wordOfBytes hd), mapNext_mapNext]

/-- Settles O9: each clause is one branch of `fetchDecodeExec`, and what it raises is a trap by `raise_raises`. -/
theorem fetchSideTraps : Obligations.FetchSideTraps := by
  intro s hr hn
  constructor
  · intro hpc
    refine ⟨_, (raise_raises .instructionAddressMisaligned _ { deliver s with waiting := false }).1 hr.mode, ?_⟩
    rw [step, cycle_misaligned hr hn hpc]
    rfl
  · intro hpc hport
    refine ⟨_, (raise_raises .instructionAccessFault _ { deliver s with waiting := false }).1 hr.mode, ?_⟩
    rw [step, cycle_fetchFault hr hn hpc hport]
    rfl

end Machine
end Sys2Proof
end

section
/-! SUPPORT. What a step leaves alone besides the hart's own state: the parameters of the system and, but for the
platform's input, the levels of the interrupt lines (00_scope R8; 10 R52). -/

namespace Sys2Proof
namespace Machine

/-- `t` has the parameters and the interrupt lines of `s`. -/
def SameSystem (s t : State) : Prop := t.cfg = s.cfg ∧ t.irq = s.irq

theorem raise_sameSystem (e : Exc) (v : Word) (s : State) : SameSystem s (raise e v s) := by
  unfold raise
  split <;> exact ⟨rfl, rfl⟩

theorem memRead_sameSystem (z : AccessSize) (a : Word) (s : State) : SameSystem s (memRead z a s).1 := by
  rw [memRead_frame]
  exact ⟨rfl, rfl⟩

theorem memWrite_sameSystem (z : AccessSize) (a v : Word) (s : State) : SameSystem s (memWrite z a v s).1 := by
  rw [memWrite_frame]
  exact ⟨rfl, rfl⟩

/-- No instruction is made of anything that changes the parameters or the lines. -/
theorem sameSystem_primitives (i : Instr) : Primitives i SameSystem where
  refl _ := ⟨rfl, rfl⟩
  trans := fun ⟨hc, hi⟩ ⟨hc', hi'⟩ => ⟨hc'.trans hc, hi'.trans hi⟩
  setReg _ _ _ := ⟨rfl, rfl⟩
  advance _ := ⟨rfl, rfl⟩
  raise s e v := raise_sameSystem e v s
  read s z a := memRead_sameSystem z a s
  write s z a v := memWrite_sameSystem z a v s
  csr _ _ _ _ := ⟨rfl, rfl⟩
  reserve _ _ _ _ _ := ⟨rfl, rfl⟩
  jump _ _ _ _ _ := ⟨rfl, rfl⟩
  transfer _ _ := ⟨rfl, rfl⟩
  ret _ _ _ := ⟨rfl, rfl⟩
  halt _ _ _ _ := ⟨rfl, rfl⟩
  endBuffer _ _ _ := ⟨rfl, rfl⟩
  wait _ _ _ := ⟨rfl, rfl⟩
  refetch _ := ⟨rfl, rfl⟩
  leave _ _ _ := ⟨rfl, rfl⟩

theorem cycle_sameSystem {s t : State} (h : cycle s = .next t) : SameSystem s t :=
  cycle_preserves (fun _ i _ => sameSystem_primitives i) (fun _ _ _ => ⟨rfl, rfl⟩) (fun _ _ _ _ => ⟨rfl, rfl⟩)
    (fun _ _ _ => ⟨rfl, rfl⟩) (fun _ => ⟨rfl, rfl⟩) (fun _ _ _ => ⟨rfl, rfl⟩) h

/-! ### The inputs of the boundary -/

theorem debugRegWrite_cfg {r : BitVec 16} {v : Word} {s t : State} (h : debugRegWrite r v s = some t) :
    t.cfg = s.cfg := by
  unfold debugRegWrite at h
  split at h
  · obtain ⟨c, -, rfl⟩ := Option.map_eq_some_iff.mp h
    rfl
  · split at h <;> cases h
    rfl

theorem commandTransfer_cfg {v : Word} {s t : State} (h : commandTransfer v s = some t) : t.cfg = s.cfg := by
  unfold commandTransfer at h
  split at h
  · cases h
    rfl
  split at h
  · cases h
  split at h
  · obtain ⟨r, -, rfl⟩ := Option.map_eq_some_iff.mp h
    rfl
  · exact debugRegWrite_cfg h

theorem writeCommand_cfg (v : Word) (s : State) : (writeCommand v s).cfg = s.cfg := by
  simp only [writeCommand]
  split
  · rfl
  split
  · rfl
  split
  · rfl
  split
  · rfl
  split
  · rfl
  · rename_i t ht
    show t.cfg = s.cfg
    exact (commandTransfer_cfg ht :)

theorem releaseReset_cfg (u : ResetValues) (s : State) : (releaseReset u s).cfg = s.cfg := by
  unfold releaseReset
  split
  · split <;> rfl
  · rfl

theorem resumeRequest_cfg (s : State) : (resumeRequest s).cfg = s.cfg := by
  unfold resumeRequest
  split <;> rfl

theorem applyInput_cfg (s : State) (i : Input) : (applyInput s i).cfg = s.cfg := by
  cases i with
  | irq | busWrite | busTimer | assertReset | hartsel | abstractcs | data0 | progbuf => rfl
  | releaseReset u => exact releaseReset_cfg u s
  | haltreq | resetHaltReq =>
    simp only [applyInput]
    split <;> rfl
  | resumereq => exact resumeRequest_cfg s
  | command v => exact writeCommand_cfg v s

theorem deliver_cfg (s : State) : (deliver s).cfg = s.cfg :=
  deliver_preserves (P := fun t => t.cfg = s.cfg) (fun _ _ h => h) (fun t i h => (applyInput_cfg t i).trans h) s rfl

/-- Settles O60: neither the inputs of the boundary nor the cycle nor the timer's advance touches the parameters, and
of the three only an input touches the lines. -/
theorem stepKeepsParameters : Obligations.StepKeepsParameters := by
  intro s t h
  obtain ⟨u, hu, rfl⟩ := step_next h
  obtain ⟨hcfg, hirq⟩ := cycle_sameSystem hu
  refine ⟨hcfg.trans (deliver_cfg s), fun hnil => ?_⟩
  rw [deliver_nil hnil] at hirq
  exact hirq

end Machine
end Sys2Proof
end

section
/-! SUPPORT. Which outcomes are next states: an instruction stops in D-mode only, and only ECALL, MRET and WFI do
(60 R476; log 21); the words of these three. -/

namespace Sys2Proof
namespace Machine

/-- The outcome is a next state, not a stop. -/
def Answers (o : Out) : Prop := ∃ t, o = .next t

@[simp] theorem answers_next (s : State) : Answers (.next s) := ⟨s, rfl⟩

@[simp] theorem not_answers_fault (r : Fault) : ¬ Answers (.fault r) := fun ⟨_, h⟩ => nomatch h

@[simp] theorem not_answers_refused (r : Refusal) : ¬ Answers (.refused r) := fun ⟨_, h⟩ => nomatch h

@[simp] theorem answers_mapNext (f : State → State) (o : Out) : Answers (mapNext f o) ↔ Answers o := by
  cases o <;> simp [mapNext]

/-! ### Instructions -/

theorem writeRd_answers (rd : RegNum) (v : Word) (s : State) : Answers (writeRd rd v s) := ⟨_, rfl⟩

theorem loadOp_answers (z : AccessSize) (ext : Word → Word) (rd : RegNum) (ea : Word) (s : State) :
    Answers (loadOp z ext rd ea s) := by
  unfold loadOp
  split
  · split <;> exact ⟨_, rfl⟩
  · exact ⟨_, rfl⟩

theorem storeOp_answers (z : AccessSize) (ea v : Word) (s : State) : Answers (storeOp z ea v s) := by
  unfold storeOp
  split
  · split <;> exact ⟨_, rfl⟩
  · exact ⟨_, rfl⟩

theorem amoOp_answers (f : Word → Word → Word) (rd rs1 rs2 : RegNum) (s : State) :
    Answers (amoOp f rd rs1 rs2 s) := by
  simp only [amoOp]
  split
  · split
    · exact ⟨_, rfl⟩
    · split <;> exact ⟨_, rfl⟩
  · exact ⟨_, rfl⟩

theorem execLrW_answers (aq rl : Bool) (rd rs1 : RegNum) (s : State) : Answers (execLrW aq rl rd rs1 s) := by
  simp only [execLrW]
  split
  · split <;> exact ⟨_, rfl⟩
  · exact ⟨_, rfl⟩

theorem execScW_answers (aq rl : Bool) (rd rs1 rs2 : RegNum) (s : State) : Answers (execScW aq rl rd rs1 rs2 s) := by
  simp only [execScW]
  split
  · split
    · split <;> exact ⟨_, rfl⟩
    · exact ⟨_, rfl⟩
  · exact ⟨_, rfl⟩

theorem linkAndJump_answers (rd : RegNum) (target : Word) (s : State) : Answers (linkAndJump rd target s) := by
  unfold linkAndJump
  split <;> exact ⟨_, rfl⟩

theorem branch_answers (taken : Bool) (off : BitVec 13) (s : State) : Answers (branch taken off s) := by
  unfold branch
  split <;> exact ⟨_, rfl⟩

theorem csrInstr_answers (i : Instr) (rd : RegNum) (n : CsrNum) (w : Bool) (new : Word → Word) (s : State) :
    Answers (csrInstr i rd n w new s) := by
  unfold csrInstr
  split <;> exact ⟨_, rfl⟩

theorem execFenceI_answers (imm : BitVec 12) (rs1 rd : RegNum) (s : State) : Answers (execFenceI imm rs1 rd s) := by
  unfold execFenceI
  split <;> exact ⟨_, rfl⟩

theorem execEbreak_answers (s : State) : Answers (execEbreak s) := by
  unfold execEbreak
  split
  · split <;> exact ⟨_, rfl⟩
  · exact ⟨_, rfl⟩

theorem execDret_answers (s : State) : Answers (execDret s) := by
  unfold execDret
  split <;> exact ⟨_, rfl⟩

theorem execEcall_answers (s : State) : Answers (execEcall s) ↔ s.mode = .M := by
  unfold execEcall
  split <;> simp [*]

theorem execMret_answers (s : State) : Answers (execMret s) ↔ s.mode = .M := by
  unfold execMret
  split <;> simp [*]

theorem execWfi_answers (s : State) : Answers (execWfi s) ↔ s.mode = .M := by
  unfold execWfi
  split <;> simp [*]

/-- The instructions without a meaning in D-mode (44 R305; log 21). -/
def stopsInDebugMode : Instr → Bool
  | .ecall | .mret | .wfi => true
  | _ => false

/-- Every other instruction answers a next state in both modes. -/
theorem exec_answers {i : Instr} (h : stopsInDebugMode i = false) (s : State) : Answers (exec i s) := by
  cases i with
  | ecall | mret | wfi => cases h
  | lui | auipc | addi | slti | sltiu | xori | ori | andi | slli | srli | srai => exact writeRd_answers _ _ _
  | add | sub | sll | slt | sltu | xor | srl | sra | or | and => exact writeRd_answers _ _ _
  | jal | jalr => exact linkAndJump_answers _ _ _
  | beq | bne | blt | bge | bltu | bgeu => exact branch_answers _ _ _
  | lb | lh | lw | lbu | lhu => exact loadOp_answers _ _ _ _ _
  | sb | sh | sw => exact storeOp_answers _ _ _ _
  | fence => exact answers_next _
  | fenceI => exact execFenceI_answers _ _ _ _
  | ebreak => exact execEbreak_answers _
  | csrrw | csrrs | csrrc | csrrwi | csrrsi | csrrci =>
    simp only [exec, execCsrrw, execCsrrs, execCsrrc, execCsrrwi, execCsrrsi, execCsrrci, csrInstr_answers]
  | dret => exact execDret_answers _
  | lrW aq rl rd rs1 => exact execLrW_answers aq rl rd rs1 s
  | scW aq rl rd rs1 rs2 => exact execScW_answers aq rl rd rs1 rs2 s
  | amoswapW | amoaddW | amoxorW | amoandW | amoorW | amominW | amomaxW | amominuW | amomaxuW =>
    simp only [exec, execAmoswapW, execAmoaddW, execAmoxorW, execAmoandW, execAmoorW, execAmominW, execAmomaxW,
      execAmominuW, execAmomaxuW, amoOp_answers]

/-- An instruction stops exactly when it is one of the three and runs in D-mode. -/
theorem exec_answers_iff (i : Instr) (s : State) :
    Answers (exec i s) ↔ (s.mode = .D → stopsInDebugMode i = false) := by
  cases h : stopsInDebugMode i with
  | false => simpa using exec_answers h s
  | true =>
    have hmode : Answers (exec i s) ↔ s.mode = .M := by
      cases i with
      | ecall => exact execEcall_answers s
      | mret => exact execMret_answers s
      | wfi => exact execWfi_answers s
      | _ => cases h
    rw [hmode]
    cases s.mode <;> simp

/-! ### The words of ECALL, MRET and WFI -/

/-- The words of the three instructions (30 R156). -/
def stopWords : List Word := [0x00000073#32, 0x30200073#32, 0x10500073#32]

/-- What has been decoded is one of the three instructions. -/
def decodesToStop : Except DecodeError Instr → Bool
  | .ok i => stopsInDebugMode i
  | .error _ => false

@[simp] theorem decodesToStop_ok (i : Instr) : decodesToStop (.ok i) = stopsInDebugMode i := rfl

@[simp] theorem decodesToStop_error (e : DecodeError) : decodesToStop (.error e) = false := rfl

@[simp] theorem decodesToStop_ite (c : Prop) [Decidable c] (a b : Except DecodeError Instr) :
    decodesToStop (if c then a else b) = if c then decodesToStop a else decodesToStop b := apply_ite _ _ _ _

theorem decodeLoad_noStop (w : Word) : decodesToStop (decodeLoad w) = false := by
  simp [decodeLoad, stopsInDebugMode]

theorem decodeStore_noStop (w : Word) : decodesToStop (decodeStore w) = false := by
  simp [decodeStore, stopsInDebugMode]

theorem decodeMiscMem_noStop (w : Word) : decodesToStop (decodeMiscMem w) = false := by
  simp [decodeMiscMem, stopsInDebugMode]

theorem decodeOpImm_noStop (w : Word) : decodesToStop (decodeOpImm w) = false := by
  simp [decodeOpImm, stopsInDebugMode]

theorem decodeOp_noStop (w : Word) : decodesToStop (decodeOp w) = false := by
  simp [decodeOp, stopsInDebugMode]

theorem decodeBranch_noStop (w : Word) : decodesToStop (decodeBranch w) = false := by
  simp [decodeBranch, stopsInDebugMode]

theorem decodeAmo_noStop (w : Word) : decodesToStop (decodeAmo w) = false := by
  simp [decodeAmo, stopsInDebugMode]

/-- Among the SYSTEM words only the three decode to one of the three. -/
theorem decodeSystem_noStop {w : Word} (h : w ∉ stopWords) : decodesToStop (decodeSystem w) = false := by
  obtain ⟨hecall, hmret, hwfi⟩ : w ≠ 0x00000073#32 ∧ w ≠ 0x30200073#32 ∧ w ≠ 0x10500073#32 := by
    simpa [stopWords] using h
  simp [decodeSystem, hecall, hmret, hwfi, stopsInDebugMode]

/-- The words of ECALL, MRET and WFI are the three of `stopWords`. -/
theorem decode_stops_iff (w : Word) : decodesToStop (decode w) = true ↔ w ∈ stopWords := by
  constructor
  · contrapose!
    intro h
    simp [decode, decodeLoad_noStop, decodeStore_noStop, decodeMiscMem_noStop, decodeOpImm_noStop, decodeOp_noStop,
      decodeBranch_noStop, decodeAmo_noStop, decodeSystem_noStop h, stopsInDebugMode]
  · intro h
    fin_cases h <;> rfl

/-! ### Cycles -/

/-- The instruction at `pc` in M-mode never stops (00_scope R18). -/
theorem fetchDecodeExec_answers {s : State} (h : s.mode = .M) : Answers (fetchDecodeExec s) := by
  by_cases hpc : s.pc.toNat % 4 = 0
  · cases hf : fetch s s.pc with
    | none => simp [fetchDecodeExec_fetchFault hpc hf]
    | some w =>
      cases hd : decode w with
      | ok i => simp [fetchDecodeExec_decoded hpc hf hd, exec_answers_iff, h]
      | error e => simp [fetchDecodeExec_unlisted hpc hf hd]
  · simp [fetchDecodeExec_misaligned hpc]

/-- In M-mode the hart never stops (00_scope R18). -/
theorem cycleM_answers {s : State} (h : s.mode = .M) : Answers (cycleM s) := by
  have hinstr : Answers (fetchDecodeExec { s with waiting := false }) := fetchDecodeExec_answers h
  unfold cycleM
  split
  · exact answers_next _
  · split
    · exact answers_next _
    · simp only
      split
      · exact answers_next _
      · exact (answers_mapNext _ _).mpr hinstr

/-- In D-mode the hart stops exactly where the program buffer has run past its last word or has reached one of the
three words (60 R476; log 21). -/
theorem cycleD_answers_iff {s : State} (h : s.mode = .D) :
    Answers (cycleD s) ↔
      ¬ ∃ k, s.dm.pbIndex = some k ∧ ∀ w, s.dm.progbuf[k]? = some w → w ∈ stopWords := by
  cases hk : s.dm.pbIndex with
  | none => simp [cycleD_idle hk]
  | some k =>
    cases hw : s.dm.progbuf[k]? with
    | none => simp [cycleD_pastEnd hk hw, hw]
    | some w =>
      have hstop := decode_stops_iff w
      cases hd : decode w with
      | ok i => simp [cycleD_decoded hk hw hd, exec_answers_iff, h, hw, ← hstop, hd]
      | error e => simp [cycleD_unlisted hk hw hd, hw, ← hstop, hd]

/-- Settles O50: the inputs and the timer never stop, reset and M-mode never stop, and D-mode is
`cycleD_answers_iff`. -/
theorem stopsOnlyInTheProgramBuffer : Obligations.StopsOnlyInTheProgramBuffer := by
  intro s
  have hstep : Answers (step s) ↔ Answers (cycle (deliver s)) := answers_mapNext _ _
  refine hstep.trans ?_
  generalize deliver s = u
  cases hr : u.inReset with
  | true => simp [cycle, hr]
  | false =>
    cases hm : u.mode with
    | M => simp [cycle_M hr hm, cycleM_answers hm]
    | D => simpa [cycle_D hr hm, stopWords] using cycleD_answers_iff hm

end Machine
end Sys2Proof
end

section
/-! SUPPORT. What the field rules of the CSRs leave in the bits that are hardwired (10_state R39 to R48; 44 R304; 60
R471): no value written and no operation of the hart reaches them. -/

namespace Sys2Proof
namespace Machine

/-- A word masked twice by masks without a common bit is 0. -/
theorem masked_and_eq_zero (v : Word) {m k : Word} (h : m &&& k = 0#32) : v &&& m &&& k = 0 := by
  rw [BitVec.and_assoc, h]
  exact BitVec.and_zero

/-- What masking by `0xFFFFFFFC` leaves is a multiple of 4. -/
theorem and_fffffffc_mod (v : Word) : (v &&& 0xFFFFFFFC#32).toNat % 4 = 0 := by
  rw [and_fffffffc_toNat]
  exact Nat.mul_mod_left _ _

theorem mstatusWord_hardwired (mie mpie : Bool) : mstatusWord mie mpie &&& 0xFFFFFF77#32 = 0x00001800#32 := by
  cases mie <;> cases mpie <;> decide

theorem mtvecMask_hardwired (cfg : Config) :
    mtvecMask cfg &&& (if cfg.vectored then 0x2#32 else 0x3#32) = 0#32 := by
  unfold mtvecMask
  cases cfg.vectored <;> decide

/-! ### The bits of `dcsr` -/

/-- The hardwired fields of `dcsr` have their values and its cause is a legal one (10_state R47; 60 R471, R484). -/
def DcsrLegal (d : Word) : Prop :=
  d &&& 0xFFFF703B#32 = 0x40000003#32 ∧ d.extractLsb' 6 3 ∈ [0#3, 1#3, 3#3, 4#3, 5#3]

/-- The hardwired fields of `dcsr`, bit by bit. -/
theorem dcsr_hardwired_iff (d : Word) :
    d &&& 0xFFFF703B#32 = 0x40000003#32 ↔
      ∀ k < 32, (0xFFFF703B#32).getLsbD k = true → d.getLsbD k = (0x40000003#32).getLsbD k := by
  constructor
  · intro h k _ hk
    rw [← h, BitVec.getLsbD_and, hk, Bool.and_true]
  · intro h
    have hsub : ∀ k < 32, (0xFFFF703B#32).getLsbD k = false → (0x40000003#32).getLsbD k = false := by decide
    refine BitVec.eq_of_getLsbD_eq fun k hk => ?_
    rw [BitVec.getLsbD_and]
    cases hm : (0xFFFF703B#32).getLsbD k with
    | true => rw [Bool.and_true, h k hk hm]
    | false => rw [Bool.and_false, hsub k hk hm]

/-- A CSR write reaches the five writable bits of `dcsr` and no other (44 R304). -/
theorem dcsrWrite_bit (d v : Word) {k : Nat} (hk : k < 32) :
    ((d &&& ~~~dcsrMask) ||| (v &&& dcsrMask)).getLsbD k =
      if k ∈ [2, 9, 10, 11, 15] then v.getLsbD k else d.getLsbD k := by
  have hmask : ∀ j < 32, dcsrMask.getLsbD j = decide (j ∈ [2, 9, 10, 11, 15]) := by decide
  rw [BitVec.getLsbD_or, BitVec.getLsbD_and, BitVec.getLsbD_and, BitVec.getLsbD_not, hmask k hk]
  by_cases h : k ∈ [2, 9, 10, 11, 15] <;> simp only [h, hk, decide_true, decide_false] <;> simp

/-- A field of `dcsr` is what it was where each of its bits is. -/
theorem extractLsb'_congr {a b : Word} {i n : Nat} (h : ∀ j < n, a.getLsbD (i + j) = b.getLsbD (i + j)) :
    a.extractLsb' i n = b.extractLsb' i n :=
  BitVec.eq_of_getLsbD_eq fun j hj => by simp only [BitVec.getLsbD_extractLsb', hj, h j hj]

theorem dcsrWrite_legal {d : Word} (v : Word) (h : DcsrLegal d) :
    DcsrLegal ((d &&& ~~~dcsrMask) ||| (v &&& dcsrMask)) := by
  obtain ⟨hfix, hcause⟩ := h
  rw [dcsr_hardwired_iff] at hfix
  constructor
  · rw [dcsr_hardwired_iff]
    intro k hk hm
    have hout : ∀ j < 32, (0xFFFF703B#32).getLsbD j = true → j ∉ [2, 9, 10, 11, 15] := by decide
    rw [dcsrWrite_bit d v hk, if_neg (hout k hk hm), hfix k hk hm]
  · have hout : ∀ j < 3, 6 + j ∉ [2, 9, 10, 11, 15] := by decide
    rwa [extractLsb'_congr fun j hj => (dcsrWrite_bit d v (by omega)).trans (if_neg (hout j hj))]

/-- Entry to D-mode writes the cause and prv, and no hardwired bit but prv's (60 R471). -/
theorem dcsrWithCause_legal {d : Word} {c : BitVec 3} (hc : c ∈ [1#3, 3#3, 4#3, 5#3]) (h : DcsrLegal d) :
    DcsrLegal (dcsrWithCause d c) := by
  obtain ⟨hfix, -⟩ := h
  rw [dcsr_hardwired_iff] at hfix
  constructor
  · rw [dcsr_hardwired_iff]
    intro k hk hm
    have hprv : ∀ j < 2, (dcsrWithCause d c).getLsbD j = true := by
      intro j hj
      have hbit := congrArg (·.getLsbD j) (dcsrWithCause_prv d c)
      simp only [BitVec.getLsbD_extractLsb', hj, decide_true, Bool.true_and, Nat.zero_add] at hbit
      rw [hbit]
      interval_cases j <;> rfl
    by_cases hk2 : k < 2
    · rw [hprv k hk2]
      interval_cases k <;> rfl
    · have hout : ∀ j < 32, 2 ≤ j → (0xFFFF703B#32).getLsbD j = true → j ∉ [0, 1, 6, 7, 8] := by decide
      rw [dcsrWithCause_bit d c k (hout k hk (by omega) hm), hfix k hk hm]
  · rw [dcsrWithCause_cause]
    exact List.mem_cons_of_mem _ hc

end Machine
end Sys2Proof
end

section
/-! The CSRs by number, what a write leaves in each, and the accesses that are refused (10_state R30 to R48; 44 R292,
R304). -/

namespace Sys2Proof
namespace Machine

/-! ### Numbers -/

/-- The number of a CSR (10_state R30, Table 13). -/
def csrNum : Csr → CsrNum
  | .mvendorid => 0xF11#12
  | .marchid => 0xF12#12
  | .mimpid => 0xF13#12
  | .mhartid => 0xF14#12
  | .mstatus => 0x300#12
  | .misa => 0x301#12
  | .mie => 0x304#12
  | .mtvec => 0x305#12
  | .mepc => 0x341#12
  | .mcause => 0x342#12
  | .mtval => 0x343#12
  | .mip => 0x344#12
  | .dcsr => 0x7B0#12
  | .dpc => 0x7B1#12

/-- Table 13 lists the numbers of the CSRs. -/
theorem mem_csrNumbers {n : CsrNum} : n ∈ csrNumbers ↔ ∃ c, n = csrNum c := by
  constructor
  · intro h
    have hlist : csrNumbers = [.mvendorid, .marchid, .mimpid, .mhartid, .mstatus, .misa, .mie, .mtvec, .mepc, .mcause,
      .mtval, .mip, .dcsr, .dpc].map csrNum := rfl
    rw [hlist, List.mem_map] at h
    obtain ⟨c, -, hc⟩ := h
    exact ⟨c, hc.symm⟩
  · rintro ⟨c, rfl⟩
    cases c <;> decide

theorem csrOfNum_csrNum (c : Csr) : csrOfNum (csrNum c) = some c := by cases c <;> rfl

/-- No other number names a CSR (10_state R31). -/
theorem csrOfNum_eq_none {n : CsrNum} : csrOfNum n = none ↔ n ∉ csrNumbers := by
  constructor
  · intro h hn
    obtain ⟨c, rfl⟩ := mem_csrNumbers.mp hn
    rw [csrOfNum_csrNum] at h
    cases h
  · intro h
    simp only [csrNumbers, List.mem_cons, List.not_mem_nil, or_false, not_or] at h
    simp only [csrOfNum, h, if_false]

/-- A number names the CSR whose number it is. -/
theorem csrOfNum_eq_some {n : CsrNum} {c : Csr} : csrOfNum n = some c ↔ n = csrNum c := by
  constructor
  · intro h
    have hn : n ∈ csrNumbers := by
      by_contra hn
      rw [csrOfNum_eq_none.mpr hn] at h
      cases h
    obtain ⟨d, rfl⟩ := mem_csrNumbers.mp hn
    rw [csrOfNum_csrNum, Option.some.injEq] at h
    rw [h]
  · rintro rfl
    exact csrOfNum_csrNum c

theorem csrDebugOnly_iff (c : Csr) : csrDebugOnly c = true ↔ csrNum c = 0x7B0#12 ∨ csrNum c = 0x7B1#12 := by
  cases c <;> decide

theorem csrReadOnly_iff (c : Csr) : csrReadOnly c = true ↔ (csrNum c).toNat / 1024 = 3 := by
  cases c <;> decide

/-! ### Accesses -/

/-- The three checks of 44 R292 are those of `CsrAllowed`. -/
theorem csrAccess_eq_none {s : State} {n : CsrNum} {writes : Bool} :
    csrAccess s n writes = none ↔ ¬ CsrAllowed s n (writes = true) := by
  unfold csrAccess CsrAllowed
  cases h : csrOfNum n with
  | none => simp [csrOfNum_eq_none.mp h]
  | some c =>
    obtain rfl := csrOfNum_eq_some.mp h
    have hmem : csrNum c ∈ csrNumbers := mem_csrNumbers.mpr ⟨c, rfl⟩
    rw [← csrDebugOnly_iff, ne_eq, ← csrReadOnly_iff]
    simp only
    split
    · simp_all
    · have hdebug : csrDebugOnly c = true → s.mode = .D := by
        intro hc
        cases hm : s.mode <;> simp_all
      split <;> simp_all

/-- Illegal Instruction with the instruction's own word as trap value (60 R404, R431). -/
theorem illegal_raises (i : Instr) (s : State) : Raises 2 (encode i) s (illegal i s) :=
  raise_raises .illegalInstruction (encode i) s

/-- A CSR instruction that fails a check raises Illegal Instruction. -/
theorem csrInstr_raises {i : Instr} {rd : RegNum} {n : CsrNum} {writes : Bool} {new : Word → Word} {s : State}
    (hi : exec i s = csrInstr i rd n writes new s) (h : ¬ CsrAllowed s n (writes = true)) :
    RaisesOn i s 2 (encode i) := by
  refine ⟨illegal i s, ?_, illegal_raises i s⟩
  rw [hi, csrInstr, csrAccess_eq_none.mpr h]

/-! ### The six forms (44 R293 to R299) -/

theorem exec_csrrw (rd rs1 : RegNum) (n : CsrNum) (s : State) :
    exec (.csrrw rd n rs1) s = csrInstr (.csrrw rd n rs1) rd n true (fun _ => s.getReg rs1) s := rfl

theorem exec_csrrs (rd rs1 : RegNum) (n : CsrNum) (s : State) :
    exec (.csrrs rd n rs1) s =
      csrInstr (.csrrs rd n rs1) rd n (rs1 != 0) (fun old => old ||| s.getReg rs1) s := rfl

theorem exec_csrrc (rd rs1 : RegNum) (n : CsrNum) (s : State) :
    exec (.csrrc rd n rs1) s =
      csrInstr (.csrrc rd n rs1) rd n (rs1 != 0) (fun old => old &&& ~~~(s.getReg rs1)) s := rfl

theorem exec_csrrwi (rd : RegNum) (uimm : BitVec 5) (n : CsrNum) (s : State) :
    exec (.csrrwi rd n uimm) s = csrInstr (.csrrwi rd n uimm) rd n true (fun _ => zext5 uimm) s := rfl

theorem exec_csrrsi (rd : RegNum) (uimm : BitVec 5) (n : CsrNum) (s : State) :
    exec (.csrrsi rd n uimm) s =
      csrInstr (.csrrsi rd n uimm) rd n (uimm != 0) (fun old => old ||| zext5 uimm) s := rfl

theorem exec_csrrci (rd : RegNum) (uimm : BitVec 5) (n : CsrNum) (s : State) :
    exec (.csrrci rd n uimm) s =
      csrInstr (.csrrci rd n uimm) rd n (uimm != 0) (fun old => old &&& ~~~(zext5 uimm)) s := rfl

/-- The register number or immediate of a setting or clearing form decides whether it writes (44 R296). -/
theorem csrAllowed_bne {s : State} {n : CsrNum} {r : BitVec 5} :
    CsrAllowed s n ((r != 0) = true) ↔ CsrAllowed s n (r ≠ 0) := by
  rw [bne_iff_ne]

/-- Settles O37: what the common rule of the six forms does where `csrAccess` refuses is `csrInstr_raises`. -/
theorem csrIllegalAccesses : Obligations.CsrIllegalAccesses := by
  intro s rd rs1 uimm n
  refine ⟨fun h => ?_, fun h => ?_, fun h => ?_⟩
  · have hno : ¬ CsrAllowed s n (true = true) := by rwa [eq_self]
    exact ⟨csrInstr_raises (exec_csrrw rd rs1 n s) hno, csrInstr_raises (exec_csrrwi rd uimm n s) hno⟩
  · have hno := mt csrAllowed_bne.mp h
    exact ⟨csrInstr_raises (exec_csrrs rd rs1 n s) hno, csrInstr_raises (exec_csrrc rd rs1 n s) hno⟩
  · have hno := mt csrAllowed_bne.mp h
    exact ⟨csrInstr_raises (exec_csrrsi rd uimm n s) hno, csrInstr_raises (exec_csrrci rd uimm n s) hno⟩

/-! ### Reads and writes -/

/-- Each row of `csrTable` gives the number of a CSR and what it reads. -/
theorem csrTable_row (s : State) : ∀ p ∈ csrTable s, csrOfNum p.1 = some p.2.1 ∧ csrRead p.2.1 s = p.2.2 := by
  intro p hp
  fin_cases hp <;> exact ⟨rfl, rfl⟩

/-- `csrTable` has a row for each number of Table 13. -/
theorem csrTable_numbers (s : State) : (csrTable s).map (·.1) = csrNumbers := rfl

/-- A CSR write leaves every other CSR as it was. -/
theorem csrRead_csrWrite_ne {c d : Csr} (h : c ≠ d) (v : Word) (s : State) :
    csrRead d (csrWrite c v s) = csrRead d s := by
  cases d with
  | mvendorid | marchid | mimpid | mhartid | misa | mip => rfl
  | mstatus | mie | mtvec | mepc | mcause | mtval | dcsr | dpc => exact if_neg h

theorem mie_written_bit (v : Word) {k : Nat} (hk : k < 32) :
    (v &&& 0xFFFF0088#32).getLsbD k = (v.getLsbD k && (k == 3 || k == 7 || decide (16 ≤ k))) := by
  have hmask : ∀ j < 32, (0xFFFF0088#32).getLsbD j = (j == 3 || j == 7 || decide (16 ≤ j)) := by decide
  rw [BitVec.getLsbD_and, hmask k hk]

/-- `mtvec` keeps BASE of what is written, and MODE bit 0 where Vectored mode exists (10_state R42). -/
theorem mtvec_written_toNat (v : Word) (cfg : Config) :
    (v &&& mtvecMask cfg).toNat = v.toNat / 4 * 4 + (if cfg.vectored then v.toNat % 2 else 0) := by
  unfold mtvecMask
  cases cfg.vectored with
  | false => exact and_fffffffc_toNat v
  | true =>
    have hmask : 0xFFFFFFFD#32 = 0xFFFFFFFC#32 ||| 1#32 := by decide
    have hdisjoint : (v &&& 0xFFFFFFFC#32) &&& (v &&& 1#32) = 0#32 := by
      rw [BitVec.and_comm v 1#32, ← BitVec.and_assoc, masked_and_eq_zero v (by decide)]
      exact BitVec.zero_and
    rw [if_pos rfl, if_pos rfl, hmask, BitVec.and_or_distrib_left, ← BitVec.add_eq_or_of_and_eq_zero _ _ hdisjoint,
      BitVec.toNat_add_of_and_eq_zero hdisjoint, and_fffffffc_toNat, BitVec.toNat_and]
    exact congrArg _ (Nat.and_one_is_mod _)

/-- Settles O38: the numbers are `csrTable_row` and `csrOfNum_eq_none`, the writes one lemma for each kind of field,
and a CSR instruction that would write an identity register fails the third check of 44 R292. -/
theorem csrWriteEffects : Obligations.CsrWriteEffects := by
  intro s v
  refine ⟨csrTable_row s, fun n => ?_, mstatusWord_toNat _ _, rfl, fun k hk => mie_written_bit v hk,
    mtvec_written_toNat v s.cfg, and_fffffffc_toNat v, rfl, rfl, rfl, fun k hk => dcsrWrite_bit s.dcsr v hk,
    and_fffffffc_toNat v, fun c d h => csrRead_csrWrite_ne h v s, fun c => rfl, fun n hn rd rs1 => ?_⟩
  · rw [csrOfNum_eq_none, ← csrTable_numbers s, List.mem_map, not_exists]
    exact forall_congr' fun p => by rw [not_and, ne_comm]
  · refine csrInstr_raises (exec_csrrw rd rs1 n s) fun ⟨_, _, hwrites⟩ => ?_
    have hid : n.toNat / 1024 = 3 := by fin_cases hn <;> rfl
    exact hwrites rfl hid

end Machine
end Sys2Proof
end

section
/-! SUPPORT. What an input of the boundary can do, said once (00_scope R17): every input is made of the operations
listed in `InputPrimitives`, and what all of them keep is kept by `deliver`. -/

namespace Sys2Proof
namespace Machine

/-- A property of states as a relation between two: the second has it if the first has. -/
def Keeps (P : State → Prop) (s t : State) : Prop := P s → P t

/-- Only a hart in D-mode and out of reset is halted (60 R481). -/
theorem halted_mode {s : State} (h : s.hartStatus = .halted) : s.inReset = false ∧ s.mode = .D := by
  unfold State.hartStatus at h
  split at h
  · cases h
  · cases hr : s.inReset <;> cases hm : s.mode <;> simp_all

/-- A relation between states kept by each operation an input can be made of. A new record of the Debug Module starts
the program buffer of a halted hart only. -/
structure InputPrimitives (R : State → State → Prop) : Prop where
  refl : ∀ s, R s s
  trans : ∀ {a b c}, R a b → R b c → R a c
  lines : ∀ (s : State) l, R s { s with irq := l }
  storage : ∀ s c v, R s (writeStorage .byte c v s)
  timer : ∀ s c, R s (setTimer c s)
  assertReset : ∀ s, R s (assertReset s)
  release : ∀ (s : State) u, s.inReset = true → R s (s.afterReset u)
  haltOnReset : ∀ s, s.inReset = false → R s (enterDebug 5 s.cfg.resetAddr s)
  resume : ∀ s, s.hartStatus = .halted → R s (leaveDebug s)
  csr : ∀ s c v, s.hartStatus = .halted → R s (csrWrite c v s)
  setReg : ∀ s r v, s.hartStatus = .halted → R s (s.setReg r v)
  debugModule : ∀ (s : State) d,
    (d.pbIndex.isSome = true → s.dm.pbIndex.isSome = true ∨ s.hartStatus = .halted) → R s { s with dm := d }

/-! ### The Access Register command (60 R478) -/

/-- Every transfer that succeeds: none, a register read, a CSR or a general register written. -/
theorem commandTransfer_cases {v : Word} {s t : State} (h : commandTransfer v s = some t) :
    t = s ∨ (∃ r, t = { s with dm := { s.dm with data0 := r } }) ∨ (∃ c w, t = csrWrite c w s) ∨
      ∃ r w, t = s.setReg r w := by
  unfold commandTransfer at h
  split at h
  · cases h
    exact .inl rfl
  split at h
  · cases h
  split at h
  · obtain ⟨r, -, rfl⟩ := Option.map_eq_some_iff.mp h
    exact .inr (.inl ⟨r, rfl⟩)
  unfold debugRegWrite at h
  split at h
  · obtain ⟨c, -, rfl⟩ := Option.map_eq_some_iff.mp h
    exact .inr (.inr (.inl ⟨c, _, rfl⟩))
  · split at h <;> cases h
    exact .inr (.inr (.inr ⟨_, _, rfl⟩))

/-- Every outcome of a write to `command`: rejected, with nothing but the Debug Module's record changed, or a transfer
on a halted hart and what follows it. -/
theorem writeCommand_cases (v : Word) (s : State) :
    (∃ d, writeCommand v s = { s with dm := d } ∧ d.pbIndex = s.dm.pbIndex) ∨
      (s.hartStatus = .halted ∧
        ∃ t, commandTransfer v { s with dm := { s.dm with command := v } } = some t ∧
          writeCommand v s = commandFinish v t) := by
  simp only [writeCommand]
  split
  · exact .inl ⟨_, rfl, rfl⟩
  split
  · exact .inl ⟨_, rfl, rfl⟩
  split
  · exact .inl ⟨_, rfl, rfl⟩
  split
  · exact .inl ⟨_, rfl, rfl⟩
  rename_i hh
  split
  · exact .inl ⟨_, rfl, rfl⟩
  · rename_i t ht
    exact .inr ⟨not_not.mp hh, t, ht, rfl⟩

variable {R : State → State → Prop}

/-- A transfer on a halted hart keeps what the operations keep, and the hart halted. -/
theorem InputPrimitives.commandTransfer (p : InputPrimitives R) {v : Word} {s t : State}
    (hs : s.hartStatus = .halted) (h : commandTransfer v s = some t) : R s t ∧ t.hartStatus = .halted := by
  rcases commandTransfer_cases h with rfl | ⟨r, rfl⟩ | ⟨c, w, rfl⟩ | ⟨r, w, rfl⟩
  · exact ⟨p.refl _, hs⟩
  · exact ⟨p.debugModule _ _ fun _ => .inr hs, hs⟩
  · exact ⟨p.csr _ _ _ hs, hs⟩
  · exact ⟨p.setReg _ _ _ hs, hs⟩

theorem InputPrimitives.writeCommand (p : InputPrimitives R) (v : Word) (s : State) : R s (writeCommand v s) := by
  rcases writeCommand_cases v s with ⟨d, e, hd⟩ | ⟨hs, t, ht, e⟩ <;> rw [e]
  · exact p.debugModule s d fun h => .inl (hd ▸ h)
  · have hcommand := p.debugModule s { s.dm with command := v } .inl
    obtain ⟨htransfer, hhalted⟩ := p.commandTransfer (s := { s with dm := { s.dm with command := v } }) hs ht
    exact p.trans hcommand (p.trans htransfer (p.debugModule t _ fun _ => .inr hhalted))

/-! ### Every input -/

theorem InputPrimitives.releaseReset (p : InputPrimitives R) (u : ResetValues) (s : State) :
    R s (releaseReset u s) := by
  unfold Machine.releaseReset
  split
  · rename_i hr
    split
    · exact p.trans (p.release s u hr) (p.haltOnReset (s.afterReset u) rfl)
    · exact p.release s u hr
  · exact p.refl s

theorem InputPrimitives.resumeRequest (p : InputPrimitives R) (s : State) : R s (resumeRequest s) := by
  unfold Machine.resumeRequest
  split
  · rename_i h
    exact p.resume s h.1
  · exact p.refl s

theorem InputPrimitives.applyInput (p : InputPrimitives R) (s : State) (i : Input) : R s (applyInput s i) := by
  cases i with
  | irq l => exact p.lines s l
  | busWrite c v => exact p.storage s c _
  | busTimer c => exact p.timer s c
  | assertReset => exact p.assertReset s
  | releaseReset u => exact p.releaseReset u s
  | haltreq | resetHaltReq =>
    simp only [Machine.applyInput]
    split
    · exact p.debugModule s _ .inl
    · exact p.refl s
  | resumereq => exact p.resumeRequest s
  | command v => exact p.writeCommand v s
  | hartsel | abstractcs | data0 | progbuf => exact p.debugModule s _ .inl

/-- A property kept by the operations of inputs, by those of cycles and by the advance of the timer is kept by every
step. -/
theorem step_keeps {P : State → Prop} (inbox : ∀ (s : State) b, P s → P { s with inbox := b })
    (input : InputPrimitives (Keeps P)) (hcycle : ∀ s t, cycle s = .next t → Keeps P s t)
    (htick : ∀ u s, Keeps P s (tick u s)) {s t : State} (hs : P s) (h : step s = .next t) : P t := by
  obtain ⟨u, hu, rfl⟩ := step_next h
  exact htick _ _ (hcycle _ _ hu (deliver_preserves inbox (fun s i => input.applyInput s i) s hs))

end Machine
end Sys2Proof
end

section
/-! The legal states (10_state R39 to R48; 60 R471, R473, R475, R481, R484): what each operation of the hart and of the
inputs leaves of them, and that every step keeps them. -/

namespace Sys2Proof
namespace Machine

/-! ### The CSRs -/

/-- The fields `CsrsLegal` speaks of. -/
def csrFields (s : State) : Bool × Word × Word × Word × Word × Word × Word :=
  (s.cfg.vectored, s.mstatus, s.mie, s.mtvec, s.mepc, s.dpc, s.dcsr)

theorem CsrsLegal.congr {s t : State} (h : CsrsLegal s) (e : csrFields t = csrFields s) : CsrsLegal t := by
  simp only [csrFields, Prod.mk.injEq] at e
  obtain ⟨hv, hmstatus, hmie, hmtvec, hmepc, hdpc, hdcsr⟩ := e
  constructor
  · rw [hmstatus, h.mstatus]
  · rw [hmie, h.mie]
  · rw [hmtvec, hv, h.mtvec]
  · rw [hmepc, h.mepc]
  · rw [hdpc, h.dpc]
  · rw [hdcsr, h.dcsr]
  · rw [hdcsr]
    exact h.cause

/-- An address kept in `mepc` or `dpc` has its two low bits 0 (10_state R43, R48). -/
theorem addressCsr_hardwired (v : Word) : v &&& 0xFFFFFFFC#32 &&& 0x3#32 = 0 := masked_and_eq_zero v (by decide)

theorem CsrsLegal.csrWrite {s : State} (h : CsrsLegal s) (c : Csr) (v : Word) : CsrsLegal (csrWrite c v s) := by
  have hdcsr : DcsrLegal (Machine.csrWrite c v s).dcsr := by
    rw [csrWrite_dcsr]
    split
    · exact dcsrWrite_legal v ⟨h.dcsr, h.cause⟩
    · exact ⟨h.dcsr, h.cause⟩
  constructor
  case mstatus =>
    rw [csrWrite_mstatus]
    split
    · exact mstatusWord_hardwired _ _
    · exact h.mstatus
  case mie =>
    rw [csrWrite_mie]
    split
    · exact masked_and_eq_zero v (by decide)
    · exact h.mie
  case mtvec =>
    rw [csrWrite_mtvec]
    split
    · exact masked_and_eq_zero v (mtvecMask_hardwired s.cfg)
    · exact h.mtvec
  case mepc =>
    rw [csrWrite_mepc]
    split
    · exact addressCsr_hardwired v
    · exact h.mepc
  case dpc =>
    rw [csrWrite_dpc]
    split
    · exact addressCsr_hardwired v
    · exact h.dpc
  case dcsr => exact hdcsr.1
  case cause => exact hdcsr.2

theorem CsrsLegal.trapEntry {s : State} (h : CsrsLegal s) (i : Bool) (c : BitVec 31) (v e : Word) :
    CsrsLegal (trapEntry i c v e s) :=
  ⟨mstatusWord_hardwired _ _, h.mie, h.mtvec, addressCsr_hardwired e, h.dpc, h.dcsr, h.cause⟩

theorem CsrsLegal.trapReturn {s : State} (h : CsrsLegal s) : CsrsLegal (trapReturn s) :=
  ⟨mstatusWord_hardwired _ _, h.mie, h.mtvec, h.mepc, h.dpc, h.dcsr, h.cause⟩

/-- D-mode is entered with one of the causes 1, 3, 4 and 5 (60 R471, R484). -/
theorem CsrsLegal.enterDebug {s : State} (h : CsrsLegal s) {c : BitVec 3} (hc : c ∈ [1#3, 3#3, 4#3, 5#3]) (p : Word) :
    CsrsLegal (enterDebug c p s) :=
  have hdcsr : DcsrLegal (dcsrWithCause s.dcsr c) := dcsrWithCause_legal hc ⟨h.dcsr, h.cause⟩
  ⟨h.mstatus, h.mie, h.mtvec, h.mepc, addressCsr_hardwired p, hdcsr.1, hdcsr.2⟩

/-- `dcsr` after reset (10_state R60). -/
theorem resetDcsr_legal : DcsrLegal 0x40000003#32 := ⟨by decide, by decide⟩

theorem afterReset_csrsLegal (u : ResetValues) (s : State) : CsrsLegal (s.afterReset u) := by
  constructor
  case mstatus =>
    show (if u.mpie then 0x00001880#32 else 0x00001800#32) &&& 0xFFFFFF77#32 = 0x00001800#32
    cases u.mpie <;> decide
  case mie => exact masked_and_eq_zero u.mie (by decide)
  case mtvec =>
    refine masked_and_eq_zero s.cfg.excAddr ?_
    show 0xFFFFFFFC#32 &&& (if s.cfg.vectored then 0x2#32 else 0x3#32) = 0#32
    cases s.cfg.vectored <;> decide
  case mepc => exact addressCsr_hardwired u.mepc
  case dpc => exact addressCsr_hardwired u.dpc
  case dcsr => exact resetDcsr_legal.1
  case cause => exact resetDcsr_legal.2

/-! ### The modes -/

/-- The fields `ModesLegal` speaks of. -/
def modeFields (s : State) : Mode × Bool × Bool × Bool × Bool × Bool :=
  (s.mode, s.inReset, s.waiting, s.stepping, s.scLoop.isSome, s.dm.pbIndex.isSome)

theorem ModesLegal.congr {s t : State} (h : ModesLegal s) (e : modeFields t = modeFields s) : ModesLegal t := by
  simp only [modeFields, Prod.mk.injEq] at e
  obtain ⟨hmode, hreset, hwaiting, hstepping, hloop, hbuffer⟩ := e
  constructor
  · rw [hwaiting, hmode, hreset]
    exact h.waiting
  · rw [hstepping, hmode, hreset]
    exact h.stepping
  · rw [hloop, hmode]
    exact h.loop
  · rw [hbuffer, hmode]
    exact h.buffer
  · rw [hreset, hmode]
    exact h.reset

/-- In D-mode the hart is out of reset, neither waits nor steps and follows no loop. -/
theorem modesLegal_D {s : State} (hm : s.mode = .D) :
    ModesLegal s ↔ s.inReset = false ∧ s.waiting = false ∧ s.stepping = false ∧ s.scLoop = none := by
  constructor
  · rintro ⟨hwaiting, hstepping, hloop, -, hreset⟩
    simp_all
  · rintro ⟨hreset, hwaiting, hstepping, hloop⟩
    constructor <;> simp [hm, hreset, hwaiting, hstepping, hloop]

/-- In M-mode and out of reset the program buffer does not run. -/
theorem modesLegal_M {s : State} (hm : s.mode = .M) (hr : s.inReset = false) :
    ModesLegal s ↔ s.dm.pbIndex = none := by
  constructor
  · rintro ⟨-, -, -, hbuffer, -⟩
    simp_all
  · intro hbuffer
    constructor <;> simp [hm, hr, hbuffer]

theorem advance_modeFields (s : State) : modeFields s.advance = modeFields s := by
  unfold modeFields
  cases hm : s.mode <;> simp [hm, DebugModule.nextIndex]

theorem debugTransfer_modeFields (s : State) : modeFields (debugTransfer s) = modeFields s := by
  simp [modeFields]

/-! ### Legal states -/

/-- What touches neither storage nor the fields above keeps a state legal. -/
theorem Legal.congr {s t : State} (h : Legal s) (hmem : t.mem = s.mem) (hcsrs : csrFields t = csrFields s)
    (hmodes : modeFields t = modeFields s) : Legal t :=
  ⟨by rw [hmem]; exact h.mem, h.csrs.congr hcsrs, h.modes.congr hmodes⟩

theorem Legal.enterDebug {s : State} (h : Legal s) (hr : s.inReset = false) {c : BitVec 3}
    (hc : c ∈ [1#3, 3#3, 4#3, 5#3]) (p : Word) : Legal (enterDebug c p s) :=
  ⟨h.mem, h.csrs.enterDebug hc p, (modesLegal_D rfl).mpr ⟨hr, rfl, rfl, rfl⟩⟩

theorem Legal.leaveDebug {s : State} (h : Legal s) (hr : s.inReset = false) : Legal (leaveDebug s) :=
  ⟨h.mem, h.csrs.congr rfl, (modesLegal_M (s := Machine.leaveDebug s) rfl hr).mpr rfl⟩

theorem Legal.csrWrite {s : State} (h : Legal s) (c : Csr) (v : Word) : Legal (csrWrite c v s) :=
  ⟨h.mem, h.csrs.csrWrite c v, h.modes.congr rfl⟩

theorem Legal.assertReset {s : State} (h : Legal s) : Legal (assertReset s) := by
  refine ⟨h.mem, h.csrs.congr rfl, ?_⟩
  constructor <;> simp [Machine.assertReset]

/-- A reset makes everything but storage legal, whatever the state was (10_state R60). -/
theorem afterReset_legal (u : ResetValues) {s : State} (h : Memory.wf s.mem = true) : Legal (s.afterReset u) :=
  ⟨h, afterReset_csrsLegal u s, (modesLegal_M rfl rfl).mpr rfl⟩

/-- The Debug Module's record may change as long as the program buffer starts in D-mode only. -/
theorem Legal.debugModule {s : State} (h : Legal s) {d : DebugModule} (hd : d.pbIndex.isSome = true → s.mode = .D) :
    Legal { s with dm := d } :=
  ⟨h.mem, h.csrs.congr rfl, ⟨h.modes.waiting, h.modes.stepping, h.modes.loop, hd, h.modes.reset⟩⟩

/-- Every input keeps the legal states. -/
theorem legal_inputPrimitives : InputPrimitives (Keeps Legal) where
  refl _ := id
  trans h h' := h' ∘ h
  lines _ _ h := h.congr rfl rfl rfl
  storage s c v h := ⟨Memory.wf_store s.mem .byte c v h.mem, h.csrs.congr rfl, h.modes.congr rfl⟩
  timer _ _ h := h.congr rfl rfl rfl
  assertReset _ h := h.assertReset
  release _ u _ h := afterReset_legal u h.mem
  haltOnReset _ hr h := h.enterDebug hr (by decide) _
  resume _ hs h := h.leaveDebug (halted_mode hs).1
  csr _ c v _ h := h.csrWrite c v
  setReg _ _ _ _ h := h.congr rfl rfl rfl
  debugModule _ _ hd h := h.debugModule fun hi => (hd hi).elim h.modes.buffer fun hs => (halted_mode hs).2

/-! ### Cycles -/

/-- A legal state out of reset: what a cycle of the hart begins in unless it does nothing. -/
structure LegalOutOfReset (s : State) : Prop where
  legal : Legal s
  reset : s.inReset = false

theorem LegalOutOfReset.congr {s t : State} (h : LegalOutOfReset s) (hmem : t.mem = s.mem)
    (hcsrs : csrFields t = csrFields s) (hmodes : modeFields t = modeFields s) : LegalOutOfReset t :=
  ⟨h.legal.congr hmem hcsrs hmodes, (congrArg (·.2.1) hmodes).trans h.reset⟩

theorem LegalOutOfReset.trapEntry {s : State} (h : LegalOutOfReset s) (hm : s.mode = .M) (i : Bool) (c : BitVec 31)
    (v e : Word) : LegalOutOfReset (trapEntry i c v e s) :=
  have hbuffer : s.dm.pbIndex = none := (modesLegal_M hm h.reset).mp h.legal.modes
  ⟨⟨h.legal.mem, h.legal.csrs.trapEntry i c v e,
    (modesLegal_M (s := Machine.trapEntry i c v e s) hm h.reset).mpr hbuffer⟩, h.reset⟩

theorem LegalOutOfReset.trapReturn {s : State} (h : LegalOutOfReset s) (hm : s.mode = .M) :
    LegalOutOfReset (trapReturn s) :=
  have hbuffer : s.dm.pbIndex = none := (modesLegal_M hm h.reset).mp h.legal.modes
  ⟨⟨h.legal.mem, h.legal.csrs.trapReturn,
    (modesLegal_M (s := Machine.trapReturn s) hm h.reset).mpr hbuffer⟩, h.reset⟩

theorem LegalOutOfReset.enterDebug {s : State} (h : LegalOutOfReset s) {c : BitVec 3}
    (hc : c ∈ [1#3, 3#3, 4#3, 5#3]) (p : Word) : LegalOutOfReset (enterDebug c p s) :=
  ⟨h.legal.enterDebug h.reset hc p, h.reset⟩

theorem LegalOutOfReset.endBuffer {s : State} (h : LegalOutOfReset s) {d : DebugModule} (hd : d.pbIndex = none) :
    LegalOutOfReset { s with dm := d } :=
  ⟨h.legal.debugModule fun hi => by simp [hd] at hi, h.reset⟩

theorem LegalOutOfReset.raise {s : State} (h : LegalOutOfReset s) (e : Exc) (v : Word) :
    LegalOutOfReset (raise e v s) := by
  unfold Machine.raise
  split
  · rename_i hm
    exact h.trapEntry hm _ _ _ _
  · exact h.endBuffer rfl

/-- Only the loop changes, and where there was none the hart is in M-mode if there is one now. -/
theorem LegalOutOfReset.loop {s : State} (h : LegalOutOfReset s) (r : Option Word) {l : Option ScLoop}
    (hl : l.isSome = true → s.mode = .M ∨ s.scLoop.isSome = true) :
    LegalOutOfReset { s with reservation := r, scLoop := l } :=
  have hmode : l.isSome = true → s.mode = .M := fun hi => (hl hi).elim id h.legal.modes.loop
  ⟨⟨h.legal.mem, h.legal.csrs.congr rfl, h.legal.modes.waiting, h.legal.modes.stepping, hmode, h.legal.modes.buffer,
    h.legal.modes.reset⟩, h.reset⟩

/-- In M-mode and out of reset the hart may begin or end a wait. -/
theorem LegalOutOfReset.wait {s : State} (h : LegalOutOfReset s) {w : Bool} (hw : w = true → s.mode = .M) :
    LegalOutOfReset { s with waiting := w } :=
  ⟨⟨h.legal.mem, h.legal.csrs.congr rfl, fun e => ⟨hw e, h.reset⟩, h.legal.modes.stepping, h.legal.modes.loop,
    h.legal.modes.buffer, h.legal.modes.reset⟩, h.reset⟩

theorem LegalOutOfReset.memRead {s : State} (h : LegalOutOfReset s) (z : AccessSize) (a : Word) :
    LegalOutOfReset (memRead z a s).1 := by
  rw [memRead_frame]
  exact h.congr rfl rfl rfl

theorem LegalOutOfReset.memWrite {s : State} (h : LegalOutOfReset s) (z : AccessSize) (a v : Word) :
    LegalOutOfReset (memWrite z a v s).1 := by
  have hmem := memWrite_wf z a v s h.legal.mem
  rw [memWrite_frame]
  exact ⟨⟨hmem, h.legal.csrs.congr rfl, h.legal.modes.congr rfl⟩, h.reset⟩

/-- Every instruction keeps the legal states out of reset. -/
theorem legal_primitives (i : Instr) : Primitives i (Keeps LegalOutOfReset) where
  refl _ := id
  trans h h' := h' ∘ h
  setReg _ _ _ h := h.congr rfl rfl rfl
  advance s h := h.congr rfl rfl (advance_modeFields s)
  raise _ e v h := h.raise e v
  read _ z a h := h.memRead z a
  write _ z a v h := h.memWrite z a v
  csr _ _ c v h := ⟨h.legal.csrWrite c v, h.reset⟩
  reserve _ _ r _ hl h := h.loop r hl
  jump _ _ _ _ _ h := h.congr rfl rfl rfl
  transfer s _ h := h.congr rfl rfl (debugTransfer_modeFields s)
  ret _ _ hm h := h.trapReturn hm
  halt _ _ _ _ h := h.enterDebug (by decide) _
  endBuffer _ _ _ h := h.endBuffer rfl
  wait _ _ hm h := h.wait fun _ => hm
  refetch _ h := h.congr rfl rfl rfl
  leave _ _ _ h := ⟨h.legal.leaveDebug h.reset, h.reset⟩

/-- Every cycle keeps the legal states; in reset it does nothing (60 R481). -/
theorem cycle_legal {s t : State} (h : cycle s = .next t) (hs : Legal s) : Legal t := by
  cases hr : s.inReset with
  | true =>
    simp only [cycle, hr, if_true] at h
    cases h
    exact hs
  | false =>
    have hkeeps : Keeps LegalOutOfReset s t :=
      cycle_preserves (fun _ i _ => legal_primitives i) (fun _ _ hl h => h.loop _ fun hi => .inr (hl hi))
        (fun _ _ _ _ h => h.enterDebug (by decide) _) (fun _ _ _ h => h.enterDebug (by decide) _)
        (fun _ h => h.wait fun e => nomatch e) (fun _ _ hm h => h.trapEntry hm _ _ _ _) h
    exact (hkeeps ⟨hs, hr⟩).legal

/-- Settles O57: the inputs keep the legal states by `legal_inputPrimitives`, the cycle by `cycle_legal`, and the
advance of the timer touches none of their fields. -/
theorem stepKeepsLegalStates : Obligations.StepKeepsLegalStates := fun _ _ =>
  step_keeps (fun _ _ h => h.congr rfl rfl rfl) legal_inputPrimitives (fun _ _ h hs => cycle_legal h hs)
    (fun _ _ h => h.congr rfl rfl rfl)

end Machine
end Sys2Proof
end

section
/-! The address of an instruction (10_state R23, R43, R48; 20_memory R96; 41 R243, R252): what each operation of the
hart and of the inputs leaves of its alignment, and that every step keeps it. -/

namespace Sys2Proof
namespace Machine

/-! ### Decoded offsets are even (30_encoding R142, R144) -/

/-- What has been decoded, if anything, is well-formed. -/
def decodesWellFormed : Except DecodeError Instr → Bool
  | .ok i => i.wellFormed
  | .error _ => true

@[simp] theorem decodesWellFormed_ok (i : Instr) : decodesWellFormed (.ok i) = i.wellFormed := rfl

@[simp] theorem decodesWellFormed_error (e : DecodeError) : decodesWellFormed (.error e) = true := rfl

@[simp] theorem decodesWellFormed_ite (c : Prop) [Decidable c] (a b : Except DecodeError Instr) :
    decodesWellFormed (if c then a else b) = if c then decodesWellFormed a else decodesWellFormed b := apply_ite _ _ _ _

/-- A bit string that ends in 0 is an even offset. -/
theorem append_zero_even {n : Nat} (v : BitVec n) : evenOffset (v ++ 0#1) = true := by
  rw [evenOffset, BitVec.getLsbD_append]
  rfl

theorem offBOf_even (w : Word) : evenOffset (offBOf w) = true := append_zero_even _

theorem offJOf_even (w : Word) : evenOffset (offJOf w) = true := append_zero_even _

theorem decodeLoad_wellFormed (w : Word) : decodesWellFormed (decodeLoad w) = true := by
  simp [decodeLoad, Instr.wellFormed]

theorem decodeStore_wellFormed (w : Word) : decodesWellFormed (decodeStore w) = true := by
  simp [decodeStore, Instr.wellFormed]

theorem decodeMiscMem_wellFormed (w : Word) : decodesWellFormed (decodeMiscMem w) = true := by
  simp [decodeMiscMem, Instr.wellFormed]

theorem decodeOpImm_wellFormed (w : Word) : decodesWellFormed (decodeOpImm w) = true := by
  simp [decodeOpImm, Instr.wellFormed]

theorem decodeOp_wellFormed (w : Word) : decodesWellFormed (decodeOp w) = true := by
  simp [decodeOp, Instr.wellFormed]

theorem decodeBranch_wellFormed (w : Word) : decodesWellFormed (decodeBranch w) = true := by
  simp [decodeBranch, Instr.wellFormed, offBOf_even]

theorem decodeAmo_wellFormed (w : Word) : decodesWellFormed (decodeAmo w) = true := by
  simp [decodeAmo, Instr.wellFormed]

theorem decodeSystem_wellFormed (w : Word) : decodesWellFormed (decodeSystem w) = true := by
  simp [decodeSystem, Instr.wellFormed]

/-- Every instruction the decoder gives is well-formed. -/
theorem decode_wellFormed {w : Word} {i : Instr} (h : decode w = .ok i) : i.wellFormed = true := by
  have hall : decodesWellFormed (decode w) = true := by
    simp [decode, decodeLoad_wellFormed, decodeStore_wellFormed, decodeMiscMem_wellFormed, decodeOpImm_wellFormed,
      decodeOp_wellFormed, decodeBranch_wellFormed, decodeAmo_wellFormed, decodeSystem_wellFormed, Instr.wellFormed,
      offJOf_even]
  rwa [h] at hall

/-! ### Aligned addresses -/

/-- A trap handler's address is a multiple of 4 (10_state R42; 60 R432). -/
theorem handlerAddress_mod (s : State) (i : Bool) (c : BitVec 31) : (s.handlerAddress i c).toNat % 4 = 0 := by
  have h := handlerAddress_at s i c
  unfold HandlerAt at h
  rw [h]
  split <;> omega

/-- The address after a multiple of 2 or 4 is one too. -/
theorem next_mod (a : Word) : (a + 4).toNat % 4 = a.toNat % 4 := by
  rw [BitVec.toNat_add]
  have h4 : (4 : Word).toNat = 4 := rfl
  omega

/-- The fields `PcLegal` speaks of. -/
def pcFields (s : State) : Config × Word × Word × Word × Mode := (s.cfg, s.dpc, s.mepc, s.pc, s.mode)

theorem PcLegal.congr {s t : State} (h : PcLegal s) (e : pcFields t = pcFields s) : PcLegal t := by
  simp only [pcFields, Prod.mk.injEq] at e
  obtain ⟨hcfg, hdpc, hmepc, hpc, hmode⟩ := e
  unfold PcLegal
  rw [hcfg, hdpc, hmepc, hpc, hmode]
  exact h

/-- An address that is a multiple of 4 is legal in both modes. -/
theorem pcLegal_of_aligned {s : State} (hreset : s.cfg.resetAddr.toNat % 4 = 0) (hdpc : s.dpc.toNat % 4 = 0)
    (hmepc : s.mepc.toNat % 4 = 0) (hpc : s.pc.toNat % 4 = 0) : PcLegal s :=
  ⟨hreset, hdpc, hmepc, by omega, fun _ => hpc⟩

/-! ### The operations -/

theorem PcLegal.csrWrite {s : State} (h : PcLegal s) (c : Csr) (v : Word) : PcLegal (csrWrite c v s) := by
  obtain ⟨hreset, hdpc, hmepc, hpc⟩ := h
  refine ⟨hreset, ?_, ?_, hpc⟩
  · rw [csrWrite_dpc]
    split
    · exact and_fffffffc_mod v
    · exact hdpc
  · rw [csrWrite_mepc]
    split
    · exact and_fffffffc_mod v
    · exact hmepc

theorem PcLegal.advance {s : State} (h : PcLegal s) : PcLegal s.advance := by
  obtain ⟨hreset, hdpc, hmepc, heven, haligned⟩ := h
  have hnext : s.advance.pc.toNat % 4 = s.pc.toNat % 4 := by
    rw [advance_pc]
    split
    · exact next_mod s.pc
    · rfl
  exact ⟨hreset, hdpc, hmepc, by omega, fun hc => hnext.trans (haligned hc)⟩

theorem PcLegal.trapEntry {s : State} (h : PcLegal s) (i : Bool) (c : BitVec 31) (v e : Word) :
    PcLegal (trapEntry i c v e s) := by
  obtain ⟨hreset, hdpc, -⟩ := h
  exact pcLegal_of_aligned hreset hdpc (and_fffffffc_mod e) (handlerAddress_mod s i c)

theorem PcLegal.raise {s : State} (h : PcLegal s) (e : Exc) (v : Word) : PcLegal (raise e v s) := by
  unfold Machine.raise
  split
  · exact h.trapEntry _ _ _ _
  · exact h.congr rfl

theorem PcLegal.trapReturn {s : State} (h : PcLegal s) : PcLegal (trapReturn s) := by
  obtain ⟨hreset, hdpc, hmepc, -⟩ := h
  exact pcLegal_of_aligned hreset hdpc hmepc hmepc

theorem PcLegal.enterDebug {s : State} (h : PcLegal s) (c : BitVec 3) (p : Word) : PcLegal (enterDebug c p s) := by
  obtain ⟨hreset, -, hmepc, -⟩ := h
  exact pcLegal_of_aligned hreset (and_fffffffc_mod p) hmepc (and_fffffffc_mod _)

theorem PcLegal.leaveDebug {s : State} (h : PcLegal s) : PcLegal (leaveDebug s) := by
  obtain ⟨hreset, hdpc, hmepc, -⟩ := h
  exact pcLegal_of_aligned hreset hdpc hmepc hdpc

/-- A jump goes to an even address, and to a multiple of 4 where it reports other targets itself (41 R243). -/
theorem PcLegal.jump {s : State} (h : PcLegal s) {p : Word} (hm : s.mode = .M)
    (heven : s.pc.toNat % 2 = 0 → p.toNat % 2 = 0) (haligned : s.cfg.misaligned = .atJump → p.toNat % 4 = 0) :
    PcLegal { s with pc := p } := by
  obtain ⟨hreset, hdpc, hmepc, hpc, -⟩ := h
  refine ⟨hreset, hdpc, hmepc, heven hpc, fun hc => hc.elim haligned fun hD => ?_⟩
  rw [show s.mode = .D from hD] at hm
  cases hm

/-- While reset is asserted the pc stands; the mode is M. -/
theorem PcLegal.assertReset {s : State} (h : PcLegal s) : PcLegal (assertReset s) := by
  obtain ⟨hreset, hdpc, hmepc, heven, haligned⟩ := h
  exact ⟨hreset, hdpc, hmepc, heven, fun hc => haligned (hc.elim .inl nofun)⟩

/-- After a reset the pc is RESET_ADDR, a multiple of 4 (00_scope R8). -/
theorem afterReset_pcLegal (u : ResetValues) {s : State} (h : s.cfg.resetAddr.toNat % 4 = 0) :
    PcLegal (s.afterReset u) :=
  pcLegal_of_aligned h (and_fffffffc_mod u.dpc) (and_fffffffc_mod u.mepc) h

/-! ### Instructions, inputs and steps -/

theorem memRead_pcFields (z : AccessSize) (a : Word) (s : State) : pcFields (memRead z a s).1 = pcFields s := by
  rw [memRead_frame]
  rfl

theorem memWrite_pcFields (z : AccessSize) (a v : Word) (s : State) : pcFields (memWrite z a v s).1 = pcFields s := by
  rw [memWrite_frame]
  rfl

/-- Every well-formed instruction keeps the address of the next one legal. -/
theorem pcLegal_primitives {i : Instr} (hi : i.wellFormed = true) : Primitives i (Keeps PcLegal) where
  refl _ := id
  trans h h' := h' ∘ h
  setReg _ _ _ h := h.congr rfl
  advance _ h := h.advance
  raise _ e v h := h.raise e v
  read s z a h := h.congr (memRead_pcFields z a s)
  write s z a v h := h.congr (memWrite_pcFields z a v s)
  csr _ _ c v h := h.csrWrite c v
  reserve _ _ _ _ _ h := h.congr rfl
  jump _ _ hm heven haligned h := h.jump hm (heven hi) haligned
  transfer _ _ h := h.congr rfl
  ret _ _ _ h := h.trapReturn
  halt _ _ _ _ h := h.enterDebug _ _
  endBuffer _ _ _ h := h.congr rfl
  wait _ _ _ h := h.congr rfl
  refetch _ h := h.congr rfl
  leave _ _ _ h := h.leaveDebug

theorem pcLegal_inputPrimitives : InputPrimitives (Keeps PcLegal) where
  refl _ := id
  trans h h' := h' ∘ h
  lines _ _ h := h.congr rfl
  storage _ _ _ h := h.congr rfl
  timer _ _ h := h.congr rfl
  assertReset _ h := h.assertReset
  release _ u _ h := afterReset_pcLegal u h.1
  haltOnReset _ _ h := h.enterDebug _ _
  resume _ _ h := h.leaveDebug
  csr _ c v _ h := h.csrWrite c v
  setReg _ _ _ _ h := h.congr rfl
  debugModule _ _ _ h := h.congr rfl

/-- Every cycle keeps the address of the instruction legal: what it executes has been decoded, so it is well-formed. -/
theorem cycle_pcLegal {s t : State} (h : cycle s = .next t) : Keeps PcLegal s t :=
  cycle_preserves (fun _ _ hd => pcLegal_primitives (decode_wellFormed hd)) (fun _ _ _ h => h.congr rfl)
    (fun _ _ _ _ h => h.enterDebug _ _) (fun _ _ _ h => h.enterDebug _ _) (fun _ h => h.congr rfl)
    (fun _ _ _ h => h.trapEntry _ _ _ _) h

/-- Settles O59: every address a trap, a return, a reset or D-mode puts in the pc is a multiple of 4, a jump's is even
and checked by `jumpTo`, and going on adds 4. -/
theorem stepKeepsInstructionAddressesAligned : Obligations.StepKeepsInstructionAddressesAligned := fun _ _ =>
  step_keeps (fun _ _ h => h.congr rfl) pcLegal_inputPrimitives (fun _ _ => cycle_pcLegal) (fun _ _ h => h.congr rfl)

end Machine
end Sys2Proof
end

section
/-! The state after power-on reset (10_state R60; 70 R500). -/

namespace Sys2Proof
namespace Machine

/-- Settles O58: a reset makes everything legal but storage, which is empty at power-on, and the pc is RESET_ADDR, 0 in
`Config.standard`. -/
theorem resetIsLegal : Obligations.ResetIsLegal :=
  ⟨afterReset_legal .zero rfl, afterReset_pcLegal .zero rfl⟩

end Machine
end Sys2Proof
end

section
/-! SUPPORT. A data access, said once for each thing that can answer it (20_memory R94, R95, R103; 42 R269; 45 R321 to
R323): a misaligned address, an address nothing answers, a device, and storage; and what the nine AMOs compute. -/

namespace Sys2Proof
namespace Machine

/-- An access is aligned when its address is a multiple of its size (20 R94). -/
theorem aligned_iff {z : AccessSize} {a : Word} : z.aligned a = true ↔ a.toNat % z.bytes = 0 := beq_iff_eq

/-- An instruction that ends in `raise` raises that exception. -/
theorem raisesOn_of_exec {i : Instr} {e : Exc} {v : Word} {s : State} (h : exec i s = .next (raise e v s)) :
    RaisesOn i s (excCode e).toNat v := ⟨_, h, raise_raises e v s⟩

/-! ### The nine AMOs (45 R324 to R332) -/

theorem minSigned_toInt (a b : Word) : (minSigned a b).toInt = min a.toInt b.toInt := by
  simp only [minSigned, ltSigned, BitVec.slt_iff_toInt_lt]
  split <;> omega

theorem maxSigned_toInt (a b : Word) : (maxSigned a b).toInt = max a.toInt b.toInt := by
  simp only [maxSigned, ltSigned, BitVec.slt_iff_toInt_lt]
  split <;> omega

theorem minUnsigned_toNat (a b : Word) : (minUnsigned a b).toNat = min a.toNat b.toNat := by
  simp only [minUnsigned, ltUnsigned, BitVec.ult_iff_lt, BitVec.lt_def]
  split <;> omega

theorem maxUnsigned_toNat (a b : Word) : (maxUnsigned a b).toNat = max a.toNat b.toNat := by
  simp only [maxUnsigned, ltUnsigned, BitVec.ult_iff_lt, BitVec.lt_def]
  split <;> omega

/-- Each AMO is the common rule of R323 over a function that gives the word its row of R324 to R332 stores. -/
theorem amoForms_exec (aq rl : Bool) (rd rs1 rs2 : RegNum) :
    ∀ p ∈ amoForms aq rl rd rs1 rs2,
      ∃ f, (∀ s, exec p.1 s = amoOp f rd rs1 rs2 s) ∧ ∀ old b, p.2 old b (f old b) := by
  simp only [amoForms, List.forall_mem_cons]
  exact ⟨⟨fun _ b => b, fun _ => rfl, fun _ _ => rfl⟩,
    ⟨fun old b => old + b, fun _ => rfl, BitVec.toNat_add⟩,
    ⟨fun old b => old ^^^ b, fun _ => rfl, fun _ _ _ _ => BitVec.getLsbD_xor⟩,
    ⟨fun old b => old &&& b, fun _ => rfl, fun _ _ _ _ => BitVec.getLsbD_and⟩,
    ⟨fun old b => old ||| b, fun _ => rfl, fun _ _ _ _ => BitVec.getLsbD_or⟩,
    ⟨minSigned, fun _ => rfl, minSigned_toInt⟩, ⟨maxSigned, fun _ => rfl, maxSigned_toInt⟩,
    ⟨minUnsigned, fun _ => rfl, minUnsigned_toNat⟩, ⟨maxUnsigned, fun _ => rfl, maxUnsigned_toNat⟩,
    List.forall_mem_nil _⟩

/-- The AMOs without what they compute. -/
theorem amo_exec {aq rl : Bool} {rd rs1 rs2 : RegNum} {i : Instr}
    (h : i ∈ (amoForms aq rl rd rs1 rs2).map Prod.fst) (s : State) : ∃ f, exec i s = amoOp f rd rs1 rs2 s := by
  obtain ⟨p, hp, rfl⟩ := List.mem_map.mp h
  obtain ⟨f, hf, -⟩ := amoForms_exec aq rl rd rs1 rs2 p hp
  exact ⟨f, hf s⟩

/-! ### Misaligned addresses (20 R94) -/

theorem load_misaligned {i : Instr} {z : AccessSize} {ext : Word → Word} {rd : RegNum} {ea : Word} {s : State}
    (hi : exec i s = loadOp z ext rd ea s) (h : ea.toNat % z.bytes ≠ 0) : RaisesOn i s 4 ea :=
  raisesOn_of_exec (e := .loadAddressMisaligned) (hi.trans (if_neg (mt aligned_iff.mp h)))

theorem store_misaligned {i : Instr} {z : AccessSize} {ea v : Word} {s : State}
    (hi : exec i s = storeOp z ea v s) (h : ea.toNat % z.bytes ≠ 0) : RaisesOn i s 6 ea :=
  raisesOn_of_exec (e := .storeAddressMisaligned) (hi.trans (if_neg (mt aligned_iff.mp h)))

theorem amo_misaligned {i : Instr} {f : Word → Word → Word} {rd rs1 rs2 : RegNum} {s : State}
    (hi : exec i s = amoOp f rd rs1 rs2 s) (h : (s.getReg rs1).toNat % 4 ≠ 0) : RaisesOn i s 6 (s.getReg rs1) :=
  raisesOn_of_exec (e := .storeAddressMisaligned) (hi.trans (if_neg (mt (aligned_iff (z := .word)).mp h)))

theorem lrW_misaligned {aq rl : Bool} {rd rs1 : RegNum} {s : State} (h : (s.getReg rs1).toNat % 4 ≠ 0) :
    RaisesOn (.lrW aq rl rd rs1) s 4 (s.getReg rs1) :=
  raisesOn_of_exec (e := .loadAddressMisaligned) (if_neg (mt (aligned_iff (z := .word)).mp h))

theorem scW_misaligned {aq rl : Bool} {rd rs1 rs2 : RegNum} {s : State} (h : (s.getReg rs1).toNat % 4 ≠ 0) :
    RaisesOn (.scW aq rl rd rs1 rs2) s 6 (s.getReg rs1) :=
  raisesOn_of_exec (e := .storeAddressMisaligned) (if_neg (mt (aligned_iff (z := .word)).mp h))

/-! ### Addresses nothing answers (20 R95, R103) -/

theorem memRead_unmapped {z : AccessSize} {a : Word} {s : State} (h : Unmapped s a) : memRead z a s = (s, none) := by
  simp only [memRead, show dataAnswer s.cfg.dmap a.toNat = .fault from h]

theorem memWrite_unmapped {z : AccessSize} {a v : Word} {s : State} (h : Unmapped s a) :
    memWrite z a v s = (s, false) := by
  simp only [memWrite, show dataAnswer s.cfg.dmap a.toNat = .fault from h]

theorem load_unmapped {i : Instr} {z : AccessSize} {ext : Word → Word} {rd : RegNum} {ea : Word} {s : State}
    (hi : exec i s = loadOp z ext rd ea s) (ha : ea.toNat % z.bytes = 0) (h : Unmapped s ea) : RaisesOn i s 5 ea :=
  raisesOn_of_exec (e := .loadAccessFault) (by simp only [hi, loadOp, aligned_iff.mpr ha, if_true, memRead_unmapped h])

theorem store_unmapped {i : Instr} {z : AccessSize} {ea v : Word} {s : State}
    (hi : exec i s = storeOp z ea v s) (ha : ea.toNat % z.bytes = 0) (h : Unmapped s ea) : RaisesOn i s 7 ea :=
  raisesOn_of_exec (e := .storeAccessFault)
    (by simp only [hi, storeOp, aligned_iff.mpr ha, if_true, memWrite_unmapped h])

theorem amo_unmapped {i : Instr} {f : Word → Word → Word} {rd rs1 rs2 : RegNum} {s : State}
    (hi : exec i s = amoOp f rd rs1 rs2 s) (ha : (s.getReg rs1).toNat % 4 = 0) (h : Unmapped s (s.getReg rs1)) :
    RaisesOn i s 7 (s.getReg rs1) :=
  raisesOn_of_exec (e := .storeAccessFault)
    (by simp only [hi, amoOp, (aligned_iff (z := .word)).mpr ha, if_true, memRead_unmapped h])

theorem lrW_unmapped {aq rl : Bool} {rd rs1 : RegNum} {s : State} (ha : (s.getReg rs1).toNat % 4 = 0)
    (h : Unmapped s (s.getReg rs1)) : RaisesOn (.lrW aq rl rd rs1) s 5 (s.getReg rs1) :=
  raisesOn_of_exec (e := .loadAccessFault)
    (by simp only [exec, execLrW, (aligned_iff (z := .word)).mpr ha, if_true, memRead_unmapped h])

end Machine
end Sys2Proof
end

section
/-! Misaligned data accesses, data accesses that nothing answers, and fetches (20_memory R94, R95, R97, R103, R118). -/

namespace Sys2Proof
namespace Machine

/-- Settles O19: every form is one of the five shapes of the `_misaligned` lemmas. -/
theorem misalignedAccessesTrap : Obligations.MisalignedAccessesTrap := by
  intro s rd rs1 rs2 imm aq rl
  refine ⟨fun h => ⟨load_misaligned (z := .half) rfl h, load_misaligned (z := .half) rfl h,
    store_misaligned (z := .half) rfl h⟩,
    fun h => ⟨load_misaligned (z := .word) rfl h, store_misaligned (z := .word) rfl h⟩,
    fun h => ⟨lrW_misaligned h, List.forall_mem_cons.mpr ⟨scW_misaligned h, fun i hi => ?_⟩⟩⟩
  obtain ⟨f, hf⟩ := amo_exec (aq := aq) (rl := rl) hi s
  exact amo_misaligned hf h

/-- Settles O20: every form is one of the four shapes of the `_unmapped` lemmas; a byte is always aligned. -/
theorem unmappedAccessesTrap : Obligations.UnmappedAccessesTrap := by
  intro s rd rs1 rs2 imm aq rl
  have byteAligned (a : Word) : a.toNat % AccessSize.byte.bytes = 0 := Nat.mod_one _
  refine ⟨fun h => ⟨load_unmapped rfl (byteAligned _) h, load_unmapped rfl (byteAligned _) h,
    store_unmapped rfl (byteAligned _) h,
    fun ha => ⟨load_unmapped (z := .half) rfl ha h, load_unmapped (z := .half) rfl ha h,
      store_unmapped (z := .half) rfl ha h⟩,
    fun ha => ⟨load_unmapped (z := .word) rfl ha h, store_unmapped (z := .word) rfl ha h⟩⟩,
    fun h ha => ⟨lrW_unmapped ha h, fun i hi => ?_⟩⟩
  obtain ⟨f, hf⟩ := amo_exec (aq := aq) (rl := rl) hi s
  exact amo_unmapped hf ha h

/-- Settles O27: a fetch that the port answers is `fetchWord` of its cell, whose outcomes are `fetchWord_cases`. -/
theorem fetchGivesOldOrNewWord : Obligations.FetchGivesOldOrNewWord := by
  intro s a
  refine ⟨fetch_eq_none, fun c w hc hw => ?_⟩
  rw [fetch, hc, Option.map_some, Option.some.injEq] at hw
  subst hw
  exact fetchWord_cases s c

end Machine
end Sys2Proof
end

section
/-! SUPPORT. Data accesses that a device answers (20_memory R95, R100; log 7): what each access records, and the ways it
ends. -/

namespace Sys2Proof
namespace Machine

/-! ### Widths (42 R261, R262, R264, R265) -/

theorem sextByte_range (v : Word) : -128 ≤ (sextByte v).toInt ∧ (sextByte v).toInt < 128 := by
  rw [sextByte, BitVec.toInt_signExtend_of_le (by decide)]
  exact ⟨BitVec.le_toInt _, BitVec.toInt_lt⟩

theorem sextHalf_range (v : Word) : -32768 ≤ (sextHalf v).toInt ∧ (sextHalf v).toInt < 32768 := by
  rw [sextHalf, BitVec.toInt_signExtend_of_le (by decide)]
  exact ⟨BitVec.le_toInt _, BitVec.toInt_lt⟩

theorem zextByte_lt (v : Word) : (zextByte v).toNat < 2 ^ 8 := by
  rw [zextByte, BitVec.toNat_setWidth_of_le (by decide)]
  exact BitVec.isLt _

theorem zextHalf_lt (v : Word) : (zextHalf v).toNat < 2 ^ 16 := by
  rw [zextHalf, BitVec.toNat_setWidth_of_le (by decide)]
  exact BitVec.isLt _

theorem clip_byte {v low : Word} (h : low.toNat = v.toNat % 2 ^ 8) : AccessSize.byte.clip v = low := by
  apply BitVec.eq_of_toNat_eq
  rw [h, AccessSize.clip, BitVec.toNat_setWidth_of_le (by decide), BitVec.toNat_setWidth]

theorem clip_half {v low : Word} (h : low.toNat = v.toNat % 2 ^ 16) : AccessSize.half.clip v = low := by
  apply BitVec.eq_of_toNat_eq
  rw [h, AccessSize.clip, BitVec.toNat_setWidth_of_le (by decide), BitVec.toNat_setWidth]

/-! ### The two transfers -/

/-- A write of this hart loses the reservation only where it falls into the reserved block (45 R333). -/
theorem breakReservation_covered (a : Word) (s : State) :
    (breakReservation a s).reservation = s.reservation ∨
      (s.reserves a = true ∧ (breakReservation a s).reservation = none) := by
  by_cases h : s.reserves a = true
  · exact (breakReservation_cases a s).imp id fun hnone => ⟨h, hnone⟩
  · exact .inl (if_neg h)

theorem memRead_device {z : AccessSize} {a : Word} {s : State} {id : Nat}
    (h : dataAnswer s.cfg.dmap a.toNat = .device id) :
    memRead z a s = (logDevice (.read id a z) s, (Config.deviceRead s.free).map z.clip) := by
  simp only [memRead, h]

theorem memWrite_device {z : AccessSize} {a v : Word} {s : State} {id : Nat}
    (h : dataAnswer s.cfg.dmap a.toNat = .device id) :
    memWrite z a v s = (breakReservation a (logDevice (.write id a z (z.clip v)) s), Config.deviceWrite s.free) := by
  simp only [memWrite, h]

/-! ### The instructions -/

theorem load_device {i : Instr} {z : AccessSize} {ext : Word → Word} {rd : RegNum} {ea : Word} {s : State} {id : Nat}
    {P : Word → Prop} (hi : exec i s = loadOp z ext rd ea s) (ha : ea.toNat % z.bytes = 0)
    (hd : dataAnswer s.cfg.dmap ea.toNat = .device id) (hP : ∀ v, P (ext v)) : ReadsDevice i s rd id ea z P := by
  simp only [ReadsDevice, hi, loadOp, aligned_iff.mpr ha, if_true, memRead_device hd]
  cases Config.deviceRead s.free with
  | none => exact ⟨_, rfl, .inr (raise_raises .loadAccessFault _ _)⟩
  | some w =>
    obtain ⟨t, ht, hc⟩ := writeRd_computes rd (ext (z.clip w)) (logDevice (.read id ea z) s)
    exact ⟨t, ht, .inl ⟨_, hP _, hc⟩⟩

theorem store_device {i : Instr} {z : AccessSize} {ea v low : Word} {s : State} {id : Nat}
    (hi : exec i s = storeOp z ea v s) (ha : ea.toNat % z.bytes = 0)
    (hd : dataAnswer s.cfg.dmap ea.toNat = .device id) (hlow : z.clip v = low) : WritesDevice i s id ea z low := by
  subst hlow
  refine ⟨(breakReservation ea (logDevice (.write id ea z (z.clip v)) s)).reservation, ?_⟩
  have hr := breakReservation_covered ea (logDevice (.write id ea z (z.clip v)) s)
  simp only [hi, storeOp, aligned_iff.mpr ha, if_true, memWrite_device hd]
  cases Config.deviceWrite s.free with
  | false => exact ⟨_, rfl, hr, .inr (raise_raises .storeAccessFault _ _)⟩
  | true => exact ⟨_, rfl, hr, .inl ⟨advance_goesOn _, rfl⟩⟩

theorem lrW_device {aq rl : Bool} {rd rs1 : RegNum} {s : State} {id : Nat} (ha : (s.getReg rs1).toNat % 4 = 0)
    (hd : dataAnswer s.cfg.dmap (s.getReg rs1).toNat = .device id) :
    ReservesDevice (.lrW aq rl rd rs1) s rd id (s.getReg rs1) := by
  simp only [ReservesDevice, exec, execLrW, (aligned_iff (z := .word)).mpr ha, if_true, memRead_device hd]
  cases Config.deviceRead s.free with
  | none => exact ⟨_, rfl, .inr (raise_raises .loadAccessFault _ _)⟩
  | some w =>
    obtain ⟨t, ht, hc⟩ := writeRd_computes rd w
      { logDevice (.read id (s.getReg rs1) .word) s with reservation := some (s.getReg rs1), scLoop := s.loopAtLr }
    exact ⟨t, ht, .inl ⟨w, hc⟩⟩

theorem scW_device {aq rl : Bool} {rd rs1 rs2 : RegNum} {s : State} {id : Nat} (ha : (s.getReg rs1).toNat % 4 = 0)
    (hd : dataAnswer s.cfg.dmap (s.getReg rs1).toNat = .device id) (hs : ScStores s (s.getReg rs1)) :
    ConditionallyWritesDevice (.scW aq rl rd rs1 rs2) s rd id (s.getReg rs1) (s.getReg rs2) := by
  obtain ⟨hres, hspurious⟩ := hs
  simp only [ConditionallyWritesDevice, exec, execScW, (aligned_iff (z := .word)).mpr ha, hres, hspurious,
    Bool.not_false, Bool.and_self, if_true, memWrite_device hd]
  cases Config.deviceWrite s.free with
  | false => exact ⟨_, rfl, .inr ⟨_, breakReservation_cases _ _, raise_raises .storeAccessFault _ _⟩⟩
  | true =>
    obtain ⟨t, ht, hc⟩ := writeRd_computes rd 0
      { logDevice (.write id (s.getReg rs1) .word (s.getReg rs2)) s with reservation := none, scLoop := none }
    exact ⟨t, ht, .inl hc⟩

theorem amo_device {i : Instr} {f : Word → Word → Word} {rd rs1 rs2 : RegNum} {s : State} {id : Nat}
    {P : Word → Word → Prop} (hi : exec i s = amoOp f rd rs1 rs2 s) (ha : (s.getReg rs1).toNat % 4 = 0)
    (hd : dataAnswer s.cfg.dmap (s.getReg rs1).toNat = .device id) (hP : ∀ old, P old (f old (s.getReg rs2))) :
    SwapsDevice i s rd id (s.getReg rs1) P := by
  simp only [SwapsDevice, hi, amoOp, (aligned_iff (z := .word)).mpr ha, if_true, memRead_device hd]
  cases Config.deviceRead s.free with
  | none => exact ⟨_, rfl, .inl (raise_raises .storeAccessFault _ _)⟩
  | some old =>
    have hd' : dataAnswer (logDevice (.read id (s.getReg rs1) .word) s).cfg.dmap (s.getReg rs1).toNat = .device id := hd
    have hr := breakReservation_covered (s.getReg rs1) (logDevice (.write id (s.getReg rs1) .word
      (f old (s.getReg rs2))) (logDevice (.read id (s.getReg rs1) .word) s))
    simp only [Option.map_some, memWrite_device hd', AccessSize.clip, logDevice_free]
    cases Config.deviceWrite s.free with
    | false => exact ⟨_, rfl, .inr ⟨old, _, _, hP old, hr, .inr (raise_raises .storeAccessFault _ _)⟩⟩
    | true =>
      obtain ⟨t, ht, hc⟩ := writeRd_computes rd old (breakReservation _ _)
      exact ⟨t, ht, .inr ⟨old, _, _, hP old, hr, .inl hc⟩⟩

end Machine
end Sys2Proof
end

section
/-! Data accesses that a device answers (20_memory R95, R100). -/

namespace Sys2Proof
namespace Machine

/-- Settles O21: every form is one of the five shapes of the `_device` lemmas; a byte is always aligned. -/
theorem deviceAccessesAreSeenOnce : Obligations.DeviceAccessesAreSeenOnce := by
  intro s rd rs1 rs2 imm aq rl dev low1 low2 ea a b h1 h2
  have byteAligned : ea.toNat % AccessSize.byte.bytes = 0 := Nat.mod_one _
  refine ⟨fun hd => ⟨load_device rfl byteAligned hd sextByte_range, load_device rfl byteAligned hd zextByte_lt,
    store_device rfl byteAligned hd (clip_byte h1), fun ha => ⟨load_device rfl ha hd sextHalf_range,
      load_device rfl ha hd zextHalf_lt, store_device rfl ha hd (clip_half h2)⟩,
    fun ha => ⟨load_device (ext := id) rfl ha hd fun _ => trivial, store_device rfl ha hd rfl⟩⟩,
    fun hd ha => ⟨lrW_device ha hd, scW_device ha hd, fun p hp => ?_⟩⟩
  obtain ⟨f, hf, hP⟩ := amoForms_exec aq rl rd rs1 rs2 p hp
  exact amo_device (hf s) ha hd fun old => hP old b

end Machine
end Sys2Proof
end

section
/-! Mixed-width access to storage (20_memory R91, R92). -/

namespace Sys2Proof
namespace Machine

/-! ### What a load from storage reads and a store to storage leaves -/

/-- A load from storage gives `x[rd]` the bytes of its cells, widened. -/
theorem load_storage {i : Instr} {z : AccessSize} {ext : Word → Word} {rd : RegNum} {ea : Word} {s : State} {c : Nat}
    (hi : exec i s = loadOp z ext rd ea s) (ha : ea.toNat % z.bytes = 0) (hc : ReachesStorage s ea c) :
    ∃ t, exec i s = .next t ∧ (rd ≠ 0 → t.getReg rd = ext (Memory.load s.mem z c)) := by
  obtain ⟨t, ht, hreg, -⟩ := writeRd_computes rd (ext (Memory.load s.mem z c)) s
  refine ⟨t, ?_, fun h => ?_⟩
  · rw [hi, loadOp_storage z ext rd ea s c (aligned_iff.mpr ha) hc, ht]
  · rw [hreg rd, if_pos ⟨rfl, h⟩]

/-- What of a store matters to later loads and stores: storage as `Memory.store` leaves it, the registers and the maps
as they were. -/
theorem store_storage {i : Instr} {z : AccessSize} {ea v : Word} {s t : State} {c : Nat}
    (hi : exec i s = storeOp z ea v s) (ha : ea.toNat % z.bytes = 0) (hc : ReachesStorage s ea c)
    (h : exec i s = .next t) : t.mem = Memory.store s.mem z c v ∧ t.x = s.x ∧ t.cfg = s.cfg := by
  rw [hi, storeOp_storage z ea v s c (aligned_iff.mpr ha) hc] at h
  cases h
  exact ⟨rfl, rfl, rfl⟩

/-- A store of a byte by a state that has the maps and the registers of an earlier one. -/
theorem sb_storage {s₀ s t : State} {p q : RegNum} {off : BitVec 12} {a : Word} {c : Nat}
    (hs : s.x = s₀.x ∧ s.cfg = s₀.cfg) (hc : ReachesStorage s₀ a c) (ha : s.effectiveAddress p off = a)
    (h : exec (.sb p q off) s = .next t) :
    t.mem = Memory.write s.mem c ((s₀.getReg q).extractLsb' 0 8) ∧ t.x = s₀.x ∧ t.cfg = s₀.cfg := by
  obtain ⟨hx, hcfg⟩ := hs
  have hreach : ReachesStorage s (s.effectiveAddress p off) c := by rwa [ReachesStorage, ha, hcfg]
  obtain ⟨hmem, htx, htcfg⟩ := store_storage (z := .byte) rfl (Nat.mod_one _) hreach h
  rw [getReg_congr hx] at hmem
  exact ⟨hmem, htx.trans hx, htcfg.trans hcfg⟩

/-! ### What the bytes say as numbers (R91) -/

/-- Bytes put side by side. -/
theorem append_byte_toNat {n : Nat} (hi : BitVec n) (lo : Byte) : (hi ++ lo).toNat = hi.toNat * 2 ^ 8 + lo.toNat := by
  rw [BitVec.toNat_append, ← Nat.shiftLeft_add_eq_or_of_lt lo.isLt, Nat.shiftLeft_eq]

theorem lbu_value (m : Memory) (c : Nat) : (zextByte (Memory.load m .byte c)).toNat = (Memory.read m c).toNat := by
  have := (Memory.read m c).isLt
  simp only [zextByte, Memory.load, BitVec.toNat_setWidth]
  omega

theorem lhu_value (m : Memory) (c : Nat) :
    (zextHalf (Memory.load m .half c)).toNat = (Memory.read m (c + 1)).toNat * 2 ^ 8 + (Memory.read m c).toNat := by
  have := (Memory.read m (c + 1) ++ Memory.read m c).isLt
  simp only [zextHalf, Memory.load, BitVec.toNat_setWidth, ← append_byte_toNat]
  omega

theorem lw_value (m : Memory) (c : Nat) :
    (Memory.load m .word c).toNat =
      (Memory.read m (c + 3)).toNat * 2 ^ 24 + (Memory.read m (c + 2)).toNat * 2 ^ 16 +
        (Memory.read m (c + 1)).toNat * 2 ^ 8 + (Memory.read m c).toNat := by
  simp only [Memory.load, append_byte_toNat]
  omega

/-- Byte `k` of a word stored. -/
theorem read_store_word (m : Memory) (c : Nat) (v : Word) {k : Nat} (hk : k < 4) :
    (Memory.read (Memory.store m .word c v) (c + k)).toNat = v.toNat / 2 ^ (8 * k) % 2 ^ 8 := by
  have hin : c ≤ c + k ∧ c + k < c + AccessSize.word.bytes := ⟨Nat.le_add_right c k, Nat.add_lt_add_left hk c⟩
  rw [Memory.read_store, if_pos hin, Nat.add_sub_cancel_left, BitVec.extractLsb'_toNat, Nat.shiftRight_eq_div_pow]

theorem add_two_even {a : Word} (h : a.toNat % 4 = 0) : (a + 2).toNat % 2 = 0 := by
  rw [BitVec.toNat_add, show (2 : Word).toNat = 2 from rfl]
  omega

/-! ### The two directions (R92) -/

/-- After an SW into four cells in a row: what storage holds, and that the four addresses still reach them. -/
theorem sw_storage {s t : State} {c : Nat} {rs1 rs2 : RegNum} {imm : BitVec 12}
    (ha : (s.effectiveAddress rs1 imm).toNat % 4 = 0)
    (hc : ∀ k < 4, ReachesStorage s (s.effectiveAddress rs1 imm + BitVec.ofNat 32 k) (c + k))
    (h : exec (.sw rs1 rs2 imm) s = .next t) :
    t.mem = Memory.store s.mem .word c (s.getReg rs2) ∧
      ∀ k < 4, ReachesStorage t (s.effectiveAddress rs1 imm + BitVec.ofNat 32 k) (c + k) := by
  have h0 : ReachesStorage s (s.effectiveAddress rs1 imm) c := by simpa using hc 0 (by decide)
  obtain ⟨hmem, -, hcfg⟩ := store_storage (z := .word) rfl ha h0 h
  refine ⟨hmem, fun k hk => ?_⟩
  rw [ReachesStorage, hcfg]
  exact hc k hk

section Readback
variable {t : State} {m : Memory} {c : Nat} {rd rb : RegNum} {off : BitVec 12}

theorem lbu_of_word {v : Word} {k : Nat} (hmem : t.mem = Memory.store m .word c v) (hk : k < 4)
    (hreach : ReachesStorage t (t.effectiveAddress rb off) (c + k)) :
    ∃ u, exec (.lbu rd rb off) t = .next u ∧
      (rd ≠ 0 → (u.getReg rd).toNat = v.toNat / 2 ^ (8 * k) % 2 ^ 8) := by
  obtain ⟨u, hu, hv⟩ := load_storage (i := .lbu rd rb off) rfl (Nat.mod_one _) hreach
  refine ⟨u, hu, fun hrd => ?_⟩
  rw [hv hrd, lbu_value, hmem, read_store_word _ _ _ hk]

theorem lhu_of_word {v : Word} (hmem : t.mem = Memory.store m .word c v)
    (ha : (t.effectiveAddress rb off).toNat % 2 = 0)
    (hreach : ReachesStorage t (t.effectiveAddress rb off) (c + 2)) :
    ∃ u, exec (.lhu rd rb off) t = .next u ∧ (rd ≠ 0 → (u.getReg rd).toNat = v.toNat / 2 ^ 16) := by
  obtain ⟨u, hu, hv⟩ := load_storage (i := .lhu rd rb off) rfl ha hreach
  refine ⟨u, hu, fun hrd => ?_⟩
  rw [hv hrd, lhu_value, hmem, Nat.add_assoc, read_store_word _ _ _ (by decide), read_store_word _ _ _ (by decide)]
  have := v.isLt
  omega

theorem lw_of_bytes {b0 b1 b2 b3 : Byte}
    (hmem : t.mem = Memory.write (Memory.write (Memory.write (Memory.write m c b0) (c + 1) b1) (c + 2) b2) (c + 3) b3)
    (ha : (t.effectiveAddress rb off).toNat % 4 = 0) (hreach : ReachesStorage t (t.effectiveAddress rb off) c) :
    ∃ u, exec (.lw rd rb off) t = .next u ∧
      (rd ≠ 0 → (u.getReg rd).toNat = b3.toNat * 2 ^ 24 + b2.toNat * 2 ^ 16 + b1.toNat * 2 ^ 8 + b0.toNat) := by
  obtain ⟨u, hu, hv⟩ := load_storage (i := .lw rd rb off) rfl ha hreach
  refine ⟨u, hu, fun hrd => ?_⟩
  rw [hv hrd, id, lw_value, hmem]
  simp [Memory.read_write]

end Readback

/-- Settles O24: the SW leaves what `sw_storage` says and the four SB what `sb_storage` says of each; the loads then
read it back. -/
theorem mixedWidthReadback : Obligations.MixedWidthReadback := by
  constructor
  · intro s t c rs1 rs2 imm a ha hc h
    obtain ⟨hmem, hreach⟩ := sw_storage ha hc h
    exact ⟨fun rd rb off k hk hea => lbu_of_word hmem hk (hea ▸ hreach k hk),
      fun rd rb off hea => lhu_of_word hmem (hea ▸ add_two_even ha) (hea ▸ hreach 2 (by decide))⟩
  · intro s0 s1 s2 s3 s4 a c p0 p1 p2 p3 q0 q1 q2 q3 rb rd o0 o1 o2 o3 off ha hc ha0 h0 ha1 h1 ha2 h2 ha3 h3 ha4
    have hc0 : ReachesStorage s0 a c := by simpa using hc 0 (by decide)
    obtain ⟨hmem1, hs1⟩ := sb_storage ⟨rfl, rfl⟩ hc0 ha0 h0
    obtain ⟨hmem2, hs2⟩ := sb_storage hs1 (hc 1 (by decide)) ha1 h1
    obtain ⟨hmem3, hs3⟩ := sb_storage hs2 (hc 2 (by decide)) ha2 h2
    obtain ⟨hmem4, -, hcfg⟩ := sb_storage hs3 (hc 3 (by decide)) ha3 h3
    have hreach : ReachesStorage s4 (s4.effectiveAddress rb off) c := by rwa [ReachesStorage, hcfg, ha4]
    rw [hmem3, hmem2, hmem1] at hmem4
    simpa only [BitVec.extractLsb'_toNat, Nat.shiftRight_zero] using lw_of_bytes (rd := rd) hmem4 (ha4 ▸ ha) hreach

end Machine
end Sys2Proof
end

section
/-! SUPPORT. The fields of a word and the words put together from fields (30_encoding R131 to R146): reading a field of
an encoded word gives that field back, and a word is the encoding of its own fields. -/

namespace Sys2Proof
open BitVec (extractLsb'_append_eq_of_le extractLsb'_append_eq_of_add_le
  extractLsb'_append_extractLsb'_eq_extractLsb')

/-! In the `simp` calls on slices of words, `-Nat.reduceAdd` keeps the width of `x ++ y` the sum that the library's
lemmas about `++` ask for. -/

theorem extract_whole {n b : Nat} (h : b = 0) (x : BitVec n) : x.extractLsb' b n = x := by
  rw [h, BitVec.extractLsb'_eq_self]

theorem ofBool_getLsbD (w : Word) (k : Nat) : BitVec.ofBool (w.getLsbD k) = w.extractLsb' k 1 := by
  ext i hi
  obtain rfl : i = 0 := by omega
  simp

/-- The bit an even offset leaves out of its encoding (30 R142, R144). -/
theorem extract_zero_of_even {n : Nat} {off : BitVec n} (h : evenOffset off = true) : off.extractLsb' 0 1 = 0#1 := by
  ext i hi
  obtain rfl : i = 0 := by omega
  simpa [evenOffset] using h

/-! ### The fields of an encoded word -/

section Fields
variable (f7 : BitVec 7) (f5 : BitVec 5) (f3 : BitVec 3) (op : BitVec 7) (rd rs1 rs2 : RegNum) (aq rl : Bool)
  (imm : BitVec 12) (immU : BitVec 20) (offB : BitVec 13) (offJ : BitVec 21)

@[simp] theorem fields_encodeR :
    opcodeOf (encodeR f7 rs2 rs1 f3 rd op) = op ∧ rdOf (encodeR f7 rs2 rs1 f3 rd op) = rd ∧
      funct3Of (encodeR f7 rs2 rs1 f3 rd op) = f3 ∧ rs1Of (encodeR f7 rs2 rs1 f3 rd op) = rs1 ∧
      rs2Of (encodeR f7 rs2 rs1 f3 rd op) = rs2 ∧ funct7Of (encodeR f7 rs2 rs1 f3 rd op) = f7 := by
  simp (disch := decide) only [encodeR, opcodeOf, rdOf, funct3Of, rs1Of, rs2Of, funct7Of,
    extractLsb'_append_eq_of_le, extractLsb'_append_eq_of_add_le, extract_whole, and_self, -Nat.reduceAdd]

@[simp] theorem fields_encodeI :
    opcodeOf (encodeI imm rs1 f3 rd op) = op ∧ rdOf (encodeI imm rs1 f3 rd op) = rd ∧
      funct3Of (encodeI imm rs1 f3 rd op) = f3 ∧ rs1Of (encodeI imm rs1 f3 rd op) = rs1 ∧
      immIOf (encodeI imm rs1 f3 rd op) = imm := by
  simp (disch := decide) only [encodeI, opcodeOf, rdOf, funct3Of, rs1Of, immIOf,
    extractLsb'_append_eq_of_le, extractLsb'_append_eq_of_add_le, extract_whole, and_self, -Nat.reduceAdd]

@[simp] theorem fields_encodeS :
    opcodeOf (encodeS imm rs2 rs1 f3) = 0b0100011#7 ∧ funct3Of (encodeS imm rs2 rs1 f3) = f3 ∧
      rs1Of (encodeS imm rs2 rs1 f3) = rs1 ∧ rs2Of (encodeS imm rs2 rs1 f3) = rs2 ∧
      immSOf (encodeS imm rs2 rs1 f3) = imm := by
  simp (disch := decide) only [encodeS, opcodeOf, funct3Of, rs1Of, rs2Of, immSOf, extractLsb'_append_eq_of_le,
    extractLsb'_append_eq_of_add_le, extractLsb'_append_extractLsb'_eq_extractLsb', extract_whole, and_self,
    -Nat.reduceAdd]

@[simp] theorem fields_encodeB :
    opcodeOf (encodeB offB rs2 rs1 f3) = 0b1100011#7 ∧ funct3Of (encodeB offB rs2 rs1 f3) = f3 ∧
      rs1Of (encodeB offB rs2 rs1 f3) = rs1 ∧ rs2Of (encodeB offB rs2 rs1 f3) = rs2 := by
  simp (disch := decide) only [encodeB, opcodeOf, funct3Of, rs1Of, rs2Of,
    extractLsb'_append_eq_of_le, extractLsb'_append_eq_of_add_le, extract_whole, and_self, -Nat.reduceAdd]

@[simp] theorem fields_encodeU :
    opcodeOf (encodeU immU rd op) = op ∧ rdOf (encodeU immU rd op) = rd ∧ immUOf (encodeU immU rd op) = immU := by
  simp (disch := decide) only [encodeU, opcodeOf, rdOf, immUOf,
    extractLsb'_append_eq_of_le, extractLsb'_append_eq_of_add_le, extract_whole, and_self, -Nat.reduceAdd]

@[simp] theorem fields_encodeJ :
    opcodeOf (encodeJ offJ rd) = 0b1101111#7 ∧ rdOf (encodeJ offJ rd) = rd := by
  simp (disch := decide) only [encodeJ, opcodeOf, rdOf,
    extractLsb'_append_eq_of_le, extractLsb'_append_eq_of_add_le, extract_whole, and_self, -Nat.reduceAdd]

/-- The atomic form is the R-type with `funct5`, `aq` and `rl` in the place of `funct7` (30 R138). -/
theorem encodeAmo_eq_encodeR :
    encodeAmo f5 aq rl rs2 rs1 rd =
      encodeR (f5 ++ BitVec.ofBool aq ++ BitVec.ofBool rl) rs2 rs1 0b010#3 rd 0b0101111#7 := rfl

@[simp] theorem fields_encodeAmo :
    opcodeOf (encodeAmo f5 aq rl rs2 rs1 rd) = 0b0101111#7 ∧ rdOf (encodeAmo f5 aq rl rs2 rs1 rd) = rd ∧
      funct3Of (encodeAmo f5 aq rl rs2 rs1 rd) = 0b010#3 ∧ rs1Of (encodeAmo f5 aq rl rs2 rs1 rd) = rs1 ∧
      rs2Of (encodeAmo f5 aq rl rs2 rs1 rd) = rs2 := by
  simp [encodeAmo_eq_encodeR]

@[simp] theorem funct5Of_encodeAmo : funct5Of (encodeAmo f5 aq rl rs2 rs1 rd) = f5 := by
  simp (disch := decide) only [encodeAmo, funct5Of, extractLsb'_append_eq_of_le, extract_whole, -Nat.reduceAdd]

@[simp] theorem aqOf_encodeAmo : aqOf (encodeAmo f5 aq rl rs2 rs1 rd) = aq := by
  apply BitVec.ofBool_eq_iff_eq.mp
  simp (disch := decide) only [encodeAmo, aqOf, ofBool_getLsbD,
    extractLsb'_append_eq_of_le, extractLsb'_append_eq_of_add_le, extract_whole, -Nat.reduceAdd]

@[simp] theorem rlOf_encodeAmo : rlOf (encodeAmo f5 aq rl rs2 rs1 rd) = rl := by
  apply BitVec.ofBool_eq_iff_eq.mp
  simp (disch := decide) only [encodeAmo, rlOf, ofBool_getLsbD,
    extractLsb'_append_eq_of_le, extractLsb'_append_eq_of_add_le, extract_whole, -Nat.reduceAdd]

end Fields

theorem offBOf_encodeB {off : BitVec 13} (h : evenOffset off = true) (rs2 rs1 : RegNum) (f3 : BitVec 3) :
    offBOf (encodeB off rs2 rs1 f3) = off := by
  simp (disch := decide) only [offBOf, encodeB, ← extract_zero_of_even h, extractLsb'_append_eq_of_le,
    extractLsb'_append_eq_of_add_le, extractLsb'_append_extractLsb'_eq_extractLsb', extract_whole, -Nat.reduceAdd]

theorem offJOf_encodeJ {off : BitVec 21} (h : evenOffset off = true) (rd : RegNum) :
    offJOf (encodeJ off rd) = off := by
  simp (disch := decide) only [offJOf, encodeJ, ← extract_zero_of_even h, extractLsb'_append_eq_of_le,
    extractLsb'_append_eq_of_add_le, extractLsb'_append_extractLsb'_eq_extractLsb', extract_whole, -Nat.reduceAdd]

/-! ### A word is the encoding of its fields -/

section Reassembly
variable {w : Word} {f7 : BitVec 7} {f5 : BitVec 5} {f3 : BitVec 3} {op : BitVec 7}

theorem encodeR_self (w : Word) :
    encodeR (funct7Of w) (rs2Of w) (rs1Of w) (funct3Of w) (rdOf w) (opcodeOf w) = w := by
  simp (disch := decide) only [encodeR, funct7Of, rs2Of, rs1Of, funct3Of, rdOf, opcodeOf,
    extractLsb'_append_extractLsb'_eq_extractLsb', extract_whole, -Nat.reduceAdd]

theorem encodeR_of_fields (hop : opcodeOf w = op) (hf3 : funct3Of w = f3) (hf7 : funct7Of w = f7) :
    encodeR f7 (rs2Of w) (rs1Of w) f3 (rdOf w) op = w := by
  rw [← hop, ← hf3, ← hf7, encodeR_self]

theorem encodeI_of_fields (hop : opcodeOf w = op) (hf3 : funct3Of w = f3) :
    encodeI (immIOf w) (rs1Of w) f3 (rdOf w) op = w := by
  subst hop hf3
  simp (disch := decide) only [encodeI, immIOf, rs1Of, funct3Of, rdOf, opcodeOf,
    extractLsb'_append_extractLsb'_eq_extractLsb', extract_whole, -Nat.reduceAdd]

theorem encodeS_of_fields (hop : opcodeOf w = 0b0100011#7) (hf3 : funct3Of w = f3) :
    encodeS (immSOf w) (rs2Of w) (rs1Of w) f3 = w := by
  rw [encodeS, ← hop, ← hf3]
  simp (disch := decide) only [immSOf, rs2Of, rs1Of, funct3Of, opcodeOf, extractLsb'_append_eq_of_le,
    extractLsb'_append_eq_of_add_le, extractLsb'_append_extractLsb'_eq_extractLsb', extract_whole, -Nat.reduceAdd]

theorem encodeB_of_fields (hop : opcodeOf w = 0b1100011#7) (hf3 : funct3Of w = f3) :
    encodeB (offBOf w) (rs2Of w) (rs1Of w) f3 = w := by
  rw [encodeB, ← hop, ← hf3]
  simp (disch := decide) only [offBOf, rs2Of, rs1Of, funct3Of, opcodeOf, extractLsb'_append_eq_of_le,
    extractLsb'_append_eq_of_add_le, extractLsb'_append_extractLsb'_eq_extractLsb', extract_whole, -Nat.reduceAdd]

theorem encodeU_of_fields (hop : opcodeOf w = op) : encodeU (immUOf w) (rdOf w) op = w := by
  subst hop
  simp (disch := decide) only [encodeU, immUOf, rdOf, opcodeOf,
    extractLsb'_append_extractLsb'_eq_extractLsb', extract_whole, -Nat.reduceAdd]

theorem encodeJ_of_fields (hop : opcodeOf w = 0b1101111#7) : encodeJ (offJOf w) (rdOf w) = w := by
  rw [encodeJ, ← hop]
  simp (disch := decide) only [offJOf, rdOf, opcodeOf, extractLsb'_append_eq_of_le,
    extractLsb'_append_eq_of_add_le, extractLsb'_append_extractLsb'_eq_extractLsb', extract_whole, -Nat.reduceAdd]

theorem funct7Of_amo (w : Word) : funct7Of w = funct5Of w ++ BitVec.ofBool (aqOf w) ++ BitVec.ofBool (rlOf w) := by
  simp (disch := decide) only [funct7Of, funct5Of, aqOf, rlOf, ofBool_getLsbD,
    extractLsb'_append_extractLsb'_eq_extractLsb', -Nat.reduceAdd]

theorem encodeAmo_of_fields (hop : opcodeOf w = 0b0101111#7) (hf3 : funct3Of w = 0b010#3) (hf5 : funct5Of w = f5) :
    encodeAmo f5 (aqOf w) (rlOf w) (rs2Of w) (rs1Of w) (rdOf w) = w := by
  rw [encodeAmo_eq_encodeR, encodeR_of_fields hop hf3 (hf5 ▸ funct7Of_amo w)]

theorem immIOf_fence (w : Word) : immIOf w = w.extractLsb' 28 4 ++ w.extractLsb' 24 4 ++ w.extractLsb' 20 4 := by
  simp (disch := decide) only [immIOf, extractLsb'_append_extractLsb'_eq_extractLsb', -Nat.reduceAdd]

end Reassembly

/-- FENCE is an I-type word whose immediate is `fm`, `pred` and `succ` (30 R155). -/
theorem encode_fence (fm pred succ : BitVec 4) (rs1 rd : RegNum) :
    encode (.fence fm pred succ rs1 rd) = encodeI (fm ++ pred ++ succ) rs1 0b000#3 rd 0b0001111#7 := rfl

theorem fence_fields (fm pred succ : BitVec 4) (rs1 rd : RegNum) :
    (encode (.fence fm pred succ rs1 rd)).extractLsb' 28 4 = fm ∧
      (encode (.fence fm pred succ rs1 rd)).extractLsb' 24 4 = pred ∧
      (encode (.fence fm pred succ rs1 rd)).extractLsb' 20 4 = succ := by
  simp (disch := decide) only [encode, extractLsb'_append_eq_of_le, extractLsb'_append_eq_of_add_le, extract_whole,
    and_self, -Nat.reduceAdd]

end Sys2Proof
end

section
/-! Decoding and encoding undo each other (30_encoding R131 to R146, R150 to R157). -/

namespace Sys2Proof

/-- Settles O1: the decoder reads back from the word the fields the encoder has put there, one major opcode at a
time. -/
theorem decodeAfterEncode : Obligations.DecodeAfterEncode := by
  intro i hi
  cases i
  case lui | auipc => simp [encode, decode]
  case jal => simp [encode, decode, offJOf_encodeJ hi]
  case jalr => simp [encode, decode]
  case beq | bne | blt | bge | bltu | bgeu => simp [encode, decode, decodeBranch, offBOf_encodeB hi]
  case lb | lh | lw | lbu | lhu => simp [encode, decode, decodeLoad]
  case sb | sh | sw => simp [encode, decode, decodeStore]
  case addi | slti | sltiu | xori | ori | andi | slli | srli | srai => simp [encode, decode, decodeOpImm]
  case add | sub | sll | slt | sltu | xor | srl | sra | or | and => simp [encode, decode, decodeOp]
  case fence fm pred succ rs1 rd =>
    obtain ⟨hfm, hpred, hsucc⟩ := fence_fields fm pred succ rs1 rd
    rw [encode_fence] at hfm hpred hsucc ⊢
    simp [decode, decodeMiscMem, hfm, hpred, hsucc]
  case fenceI => simp [encode, decode, decodeMiscMem]
  case ecall | ebreak | mret | wfi | dret => rfl
  case csrrw | csrrs | csrrc | csrrwi | csrrsi | csrrci => simp [encode, decode, decodeSystem]
  case lrW | scW | amoswapW | amoaddW | amoxorW | amoandW | amoorW | amominW | amomaxW | amominuW | amomaxuW =>
    simp [encode, decode, decodeAmo]

/-! ### What is decoded is encoded by the word -/

/-- What has been decoded from `w`, if anything, is encoded by `w`. -/
def Reencodes (w : Word) (r : Except DecodeError Instr) : Prop := ∀ i, r = .ok i → encode i = w

section
variable {w : Word}

theorem Reencodes.ok {i : Instr} (h : encode i = w) : Reencodes w (.ok i) := fun _ e => Except.ok.inj e ▸ h

theorem Reencodes.error {e : DecodeError} : Reencodes w (.error e) := nofun

theorem Reencodes.ite {c : Prop} [Decidable c] {a b : Except DecodeError Instr} (ha : c → Reencodes w a)
    (hb : ¬ c → Reencodes w b) : Reencodes w (if c then a else b) := by
  split
  · exact ha ‹_›
  · exact hb ‹_›

theorem decodeLoad_reencodes (hop : opcodeOf w = 0b0000011#7) : Reencodes w (decodeLoad w) := by
  unfold decodeLoad
  iterate 5 refine .ite (fun hf3 => .ok (encodeI_of_fields hop hf3)) fun _ => ?_
  exact .error

theorem decodeStore_reencodes (hop : opcodeOf w = 0b0100011#7) : Reencodes w (decodeStore w) := by
  unfold decodeStore
  iterate 3 refine .ite (fun hf3 => .ok (encodeS_of_fields hop hf3)) fun _ => ?_
  exact .error

theorem decodeMiscMem_reencodes (hop : opcodeOf w = 0b0001111#7) : Reencodes w (decodeMiscMem w) := by
  refine .ite (fun hf3 => .ok ?_) fun _ => .ite (fun hf3 => .ok (encodeI_of_fields hop hf3)) fun _ => .error
  rw [encode_fence, ← immIOf_fence, encodeI_of_fields hop hf3]

theorem decodeOpImm_reencodes (hop : opcodeOf w = 0b0010011#7) : Reencodes w (decodeOpImm w) := by
  unfold decodeOpImm
  iterate 6 refine .ite (fun hf3 => .ok (encodeI_of_fields hop hf3)) fun _ => ?_
  refine .ite (fun hf3 => .ite (fun hf7 => .ok (encodeR_of_fields hop hf3 hf7)) fun _ => .error) fun _ => ?_
  have hf3 : funct3Of w = 0b101#3 := by bv_omega
  iterate 2 refine .ite (fun hf7 => .ok (encodeR_of_fields hop hf3 hf7)) fun _ => ?_
  exact .error

theorem decodeOp_reencodes (hop : opcodeOf w = 0b0110011#7) : Reencodes w (decodeOp w) := by
  refine .ite (fun hf7 => ?_) fun _ => .ite (fun hf7 => ?_) fun _ => .error
  · iterate 7 refine .ite (fun hf3 => .ok (encodeR_of_fields hop hf3 hf7)) fun _ => ?_
    have hf3 : funct3Of w = 0b111#3 := by bv_omega
    exact .ok (encodeR_of_fields hop hf3 hf7)
  · iterate 2 refine .ite (fun hf3 => .ok (encodeR_of_fields hop hf3 hf7)) fun _ => ?_
    exact .error

theorem decodeBranch_reencodes (hop : opcodeOf w = 0b1100011#7) : Reencodes w (decodeBranch w) := by
  unfold decodeBranch
  iterate 6 refine .ite (fun hf3 => .ok (encodeB_of_fields hop hf3)) fun _ => ?_
  exact .error

theorem decodeSystem_reencodes (hop : opcodeOf w = 0b1110011#7) : Reencodes w (decodeSystem w) := by
  refine .ite (fun _ => ?_) fun _ => ?_
  · iterate 5 refine .ite (fun hw => .ok hw.symm) fun _ => ?_
    exact .error
  · iterate 6 refine .ite (fun hf3 => .ok (encodeI_of_fields hop hf3)) fun _ => ?_
    exact .error

theorem decodeAmo_reencodes (hop : opcodeOf w = 0b0101111#7) : Reencodes w (decodeAmo w) := by
  refine .ite (fun hf3 => ?_) fun _ => .error
  refine .ite (fun hf5 => .ite (fun hrs2 => .ok ?_) fun _ => .error) fun _ => ?_
  · rw [encode, ← hrs2, encodeAmo_of_fields hop hf3 hf5]
  · iterate 10 refine .ite (fun hf5 => .ok (encodeAmo_of_fields hop hf3 hf5)) fun _ => ?_
    exact .error

theorem decode_reencodes (w : Word) : Reencodes w (decode w) := by
  refine .ite decodeLoad_reencodes fun _ => .ite decodeMiscMem_reencodes fun _ => .ite decodeOpImm_reencodes fun _ =>
    .ite (fun hop => .ok (encodeU_of_fields hop)) fun _ => .ite decodeStore_reencodes fun _ =>
    .ite decodeAmo_reencodes fun _ => .ite decodeOp_reencodes fun _ =>
    .ite (fun hop => .ok (encodeU_of_fields hop)) fun _ => .ite decodeBranch_reencodes fun _ =>
    .ite (fun hop => .ite (fun hf3 => .ok (encodeI_of_fields hop hf3)) fun _ => .error) fun _ =>
    .ite (fun hop => .ok (encodeJ_of_fields hop)) fun _ => .ite decodeSystem_reencodes fun _ => .error

end

/-- Settles O2: what the decoder reads is well-formed by `decode_wellFormed` and encoded by the word by
`decode_reencodes`. -/
theorem encodeAfterDecode : Obligations.EncodeAfterDecode := fun w i h =>
  ⟨Machine.decode_wellFormed h, decode_reencodes w i h⟩

end Sys2Proof
end

section
/-! The opcode table (30_encoding R158): the row of every instruction, and what a word that selects a row decodes to. -/

namespace Sys2Proof

/-! ### Words under a mask, by their fields -/

theorem fields_and (v w : Word) :
    opcodeOf (v &&& w) = opcodeOf v &&& opcodeOf w ∧ rdOf (v &&& w) = rdOf v &&& rdOf w ∧
      funct3Of (v &&& w) = funct3Of v &&& funct3Of w ∧ rs1Of (v &&& w) = rs1Of v &&& rs1Of w ∧
      rs2Of (v &&& w) = rs2Of v &&& rs2Of w ∧ funct7Of (v &&& w) = funct7Of v &&& funct7Of w :=
  ⟨BitVec.extractLsb'_and, BitVec.extractLsb'_and, BitVec.extractLsb'_and, BitVec.extractLsb'_and,
    BitVec.extractLsb'_and, BitVec.extractLsb'_and⟩

theorem and_encodeR (w : Word) (f7 : BitVec 7) (rs2 rs1 : RegNum) (f3 : BitVec 3) (rd : RegNum) (op : BitVec 7) :
    w &&& encodeR f7 rs2 rs1 f3 rd op =
      encodeR (funct7Of w &&& f7) (rs2Of w &&& rs2) (rs1Of w &&& rs1) (funct3Of w &&& f3) (rdOf w &&& rd)
        (opcodeOf w &&& op) := by
  rw [← encodeR_self (w &&& _)]
  simp only [fields_and, fields_encodeR]

theorem encodeR_inj {f7 g7 : BitVec 7} {rs2 rs2' rs1 rs1' : RegNum} {f3 g3 : BitVec 3} {rd rd' : RegNum}
    {op op' : BitVec 7} :
    encodeR f7 rs2 rs1 f3 rd op = encodeR g7 rs2' rs1' g3 rd' op' ↔
      f7 = g7 ∧ rs2 = rs2' ∧ rs1 = rs1' ∧ f3 = g3 ∧ rd = rd' ∧ op = op' := by
  constructor
  · intro h
    have hop := congrArg opcodeOf h
    have hrd := congrArg rdOf h
    have hf3 := congrArg funct3Of h
    have hrs1 := congrArg rs1Of h
    have hrs2 := congrArg rs2Of h
    have hf7 := congrArg funct7Of h
    simp only [fields_encodeR] at hop hrd hf3 hrs1 hrs2 hf7
    exact ⟨hf7, hrs2, hrs1, hf3, hrd, hop⟩
  · rintro ⟨rfl, rfl, rfl, rfl, rfl, rfl⟩
    rfl

/-! ### The fixed bits of an instruction's word -/

/-- The bits of the major opcode. -/
def opcodeBits : Word := encodeR 0#7 0#5 0#5 0#3 0#5 (BitVec.allOnes 7)

/-- The bits of `funct3` and the major opcode. -/
def funct3Bits : Word := encodeR 0#7 0#5 0#5 (BitVec.allOnes 3) 0#5 (BitVec.allOnes 7)

/-- The bits of `funct7`, `funct3` and the major opcode. -/
def funct7Bits : Word := encodeR (BitVec.allOnes 7) 0#5 0#5 (BitVec.allOnes 3) 0#5 (BitVec.allOnes 7)

/-- The bits of `funct5`, `funct3` and the major opcode. -/
def funct5Bits : Word := encodeR (BitVec.allOnes 5 ++ 0#2) 0#5 0#5 (BitVec.allOnes 3) 0#5 (BitVec.allOnes 7)

/-- The bits of `funct5`, `rs2`, `funct3` and the major opcode, all fixed in LR.W (R164). -/
def loadReservedBits : Word :=
  encodeR (BitVec.allOnes 5 ++ 0#2) (BitVec.allOnes 5) 0#5 (BitVec.allOnes 3) 0#5 (BitVec.allOnes 7)

/-- The bits of an instruction's word that no operand fills (R150 to R157). -/
def fixedBits : Instr → Word
  | .lui _ _ | .auipc _ _ | .jal _ _ => opcodeBits
  | .slli _ _ _ | .srli _ _ _ | .srai _ _ _ => funct7Bits
  | .add _ _ _ | .sub _ _ _ | .sll _ _ _ | .slt _ _ _ | .sltu _ _ _ => funct7Bits
  | .xor _ _ _ | .srl _ _ _ | .sra _ _ _ | .or _ _ _ | .and _ _ _ => funct7Bits
  | .ecall | .ebreak | .mret | .wfi | .dret => BitVec.allOnes 32
  | .lrW _ _ _ _ => loadReservedBits
  | .scW _ _ _ _ _ | .amoswapW _ _ _ _ _ | .amoaddW _ _ _ _ _ | .amoxorW _ _ _ _ _ => funct5Bits
  | .amoandW _ _ _ _ _ | .amoorW _ _ _ _ _ | .amominW _ _ _ _ _ | .amomaxW _ _ _ _ _ => funct5Bits
  | .amominuW _ _ _ _ _ | .amomaxuW _ _ _ _ _ => funct5Bits
  | .jalr _ _ _ | .beq _ _ _ | .bne _ _ _ | .blt _ _ _ | .bge _ _ _ | .bltu _ _ _ | .bgeu _ _ _ => funct3Bits
  | .lb _ _ _ | .lh _ _ _ | .lw _ _ _ | .lbu _ _ _ | .lhu _ _ _ | .sb _ _ _ | .sh _ _ _ | .sw _ _ _ => funct3Bits
  | .addi _ _ _ | .slti _ _ _ | .sltiu _ _ _ | .xori _ _ _ | .ori _ _ _ | .andi _ _ _ => funct3Bits
  | .fence _ _ _ _ _ | .fenceI _ _ _ => funct3Bits
  | .csrrw _ _ _ | .csrrs _ _ _ | .csrrc _ _ _ | .csrrwi _ _ _ | .csrrsi _ _ _ | .csrrci _ _ _ => funct3Bits

section
variable (w : Word)

theorem and_opcodeBits : w &&& opcodeBits = encodeR 0#7 0#5 0#5 0#3 0#5 (opcodeOf w) := by
  simp only [opcodeBits, and_encodeR, BitVec.and_zero, BitVec.and_allOnes]

theorem and_funct3Bits : w &&& funct3Bits = encodeR 0#7 0#5 0#5 (funct3Of w) 0#5 (opcodeOf w) := by
  simp only [funct3Bits, and_encodeR, BitVec.and_zero, BitVec.and_allOnes]

theorem and_funct7Bits : w &&& funct7Bits = encodeR (funct7Of w) 0#5 0#5 (funct3Of w) 0#5 (opcodeOf w) := by
  simp only [funct7Bits, and_encodeR, BitVec.and_zero, BitVec.and_allOnes]

theorem funct7Of_and : funct7Of w &&& (BitVec.allOnes 5 ++ 0#2) = funct5Of w ++ 0#2 := by
  have hsplit : funct7Of w = funct5Of w ++ w.extractLsb' 25 2 :=
    (BitVec.extractLsb'_append_extractLsb'_eq_extractLsb' (show 27 = 25 + 2 from rfl)).symm
  rw [hsplit, BitVec.and_append, BitVec.and_allOnes, BitVec.and_zero]

theorem and_funct5Bits :
    w &&& funct5Bits = encodeR (funct5Of w ++ 0#2) 0#5 0#5 (funct3Of w) 0#5 (opcodeOf w) := by
  simp only [funct5Bits, and_encodeR, funct7Of_and, BitVec.and_zero, BitVec.and_allOnes]

theorem and_loadReservedBits :
    w &&& loadReservedBits = encodeR (funct5Of w ++ 0#2) (rs2Of w) 0#5 (funct3Of w) 0#5 (opcodeOf w) := by
  simp only [loadReservedBits, and_encodeR, funct7Of_and, BitVec.and_zero, BitVec.and_allOnes]

end

/-! ### The row of an instruction -/

/-- The row of an instruction: its fixed bits as they stand in its word. -/
def rowOf (i : Instr) : OpcodeRow := ⟨encode i &&& fixedBits i, fixedBits i⟩

theorem rowOf_selects_iff {i : Instr} {w : Word} :
    (rowOf i).selects w = true ↔ w &&& fixedBits i = encode i &&& fixedBits i := beq_iff_eq

theorem rowOf_selects_encode (i : Instr) : (rowOf i).selects (encode i) = true := rowOf_selects_iff.mpr rfl

/-- The row of every instruction stands in the table. -/
theorem rowOf_mem (i : Instr) : rowOf i ∈ opcodeRows := by
  unfold rowOf
  cases i
  case lui | auipc | jal =>
    simp only [encode, fixedBits, and_opcodeBits, fields_encodeU, fields_encodeJ]
    decide
  case beq | bne | blt | bge | bltu | bgeu =>
    simp only [encode, fixedBits, and_funct3Bits, fields_encodeB]
    decide
  case sb | sh | sw =>
    simp only [encode, fixedBits, and_funct3Bits, fields_encodeS]
    decide
  case jalr | lb | lh | lw | lbu | lhu | addi | slti | sltiu | xori | ori | andi | fenceI
      | csrrw | csrrs | csrrc | csrrwi | csrrsi | csrrci =>
    simp only [encode, fixedBits, and_funct3Bits, fields_encodeI]
    decide
  case fence =>
    simp only [encode_fence, fixedBits, and_funct3Bits, fields_encodeI]
    decide
  case slli | srli | srai | add | sub | sll | slt | sltu | xor | srl | sra | or | and =>
    simp only [encode, fixedBits, and_funct7Bits, fields_encodeR]
    decide
  case ecall | ebreak | mret | wfi | dret => decide
  case lrW =>
    simp only [encode, fixedBits, and_loadReservedBits, fields_encodeAmo, funct5Of_encodeAmo]
    decide
  case scW | amoswapW | amoaddW | amoxorW | amoandW | amoorW | amominW | amomaxW | amominuW | amomaxuW =>
    simp only [encode, fixedBits, and_funct5Bits, fields_encodeAmo, funct5Of_encodeAmo]
    decide

/-- Every row of the table is that of the instruction its pattern decodes to. -/
theorem rowOf_decode_pattern : ∀ r ∈ opcodeRows, (decode r.pattern).toOption.map rowOf = some r := by decide

theorem exists_rowOf {r : OpcodeRow} (hr : r ∈ opcodeRows) : ∃ j, rowOf j = r := by
  obtain ⟨j, -, hj⟩ := Option.map_eq_some_iff.mp (rowOf_decode_pattern r hr)
  exact ⟨j, hj⟩

/-! ### The decoder goes by the major opcode (30 R150) -/

section
variable {w : Word}

theorem decode_load (h : opcodeOf w = 0b0000011#7) : decode w = decodeLoad w := by simp [decode, h]

theorem decode_miscMem (h : opcodeOf w = 0b0001111#7) : decode w = decodeMiscMem w := by simp [decode, h]

theorem decode_opImm (h : opcodeOf w = 0b0010011#7) : decode w = decodeOpImm w := by simp [decode, h]

theorem decode_store (h : opcodeOf w = 0b0100011#7) : decode w = decodeStore w := by simp [decode, h]

theorem decode_amo (h : opcodeOf w = 0b0101111#7) : decode w = decodeAmo w := by simp [decode, h]

theorem decode_op (h : opcodeOf w = 0b0110011#7) : decode w = decodeOp w := by simp [decode, h]

theorem decode_branch (h : opcodeOf w = 0b1100011#7) : decode w = decodeBranch w := by simp [decode, h]

theorem decode_system (h : opcodeOf w = 0b1110011#7) : decode w = decodeSystem w := by simp [decode, h]

end

/-! ### What a word that selects a row decodes to -/

section
variable {v w : Word}

theorem opcodeBits_agree : w &&& opcodeBits = v &&& opcodeBits ↔ opcodeOf w = opcodeOf v := by
  simp only [and_opcodeBits, encodeR_inj, true_and]

theorem funct3Bits_agree :
    w &&& funct3Bits = v &&& funct3Bits ↔ funct3Of w = funct3Of v ∧ opcodeOf w = opcodeOf v := by
  simp only [and_funct3Bits, encodeR_inj, true_and]

theorem funct7Bits_agree :
    w &&& funct7Bits = v &&& funct7Bits ↔
      funct7Of w = funct7Of v ∧ funct3Of w = funct3Of v ∧ opcodeOf w = opcodeOf v := by
  simp only [and_funct7Bits, encodeR_inj, true_and]

theorem funct5Bits_agree :
    w &&& funct5Bits = v &&& funct5Bits ↔
      funct5Of w = funct5Of v ∧ funct3Of w = funct3Of v ∧ opcodeOf w = opcodeOf v := by
  simp only [and_funct5Bits, encodeR_inj, true_and]
  rw [BitVec.append_left_inj]

theorem loadReservedBits_agree :
    w &&& loadReservedBits = v &&& loadReservedBits ↔
      funct5Of w = funct5Of v ∧ rs2Of w = rs2Of v ∧ funct3Of w = funct3Of v ∧ opcodeOf w = opcodeOf v := by
  simp only [and_loadReservedBits, encodeR_inj, true_and]
  rw [BitVec.append_left_inj]

end

/-- A word with the fixed bits of an instruction decodes to an instruction with the same bits fixed. -/
theorem decode_of_rowOf_selects {j : Instr} {w : Word} (h : (rowOf j).selects w = true) :
    ∃ i, decode w = .ok i ∧ fixedBits i = fixedBits j := by
  rw [rowOf_selects_iff] at h
  cases j
  case lui | auipc =>
    have hop := opcodeBits_agree.mp h
    simp only [encode, fields_encodeU] at hop
    rw [decode, hop]
    exact ⟨_, rfl, rfl⟩
  case jal =>
    have hop := opcodeBits_agree.mp h
    simp only [encode, fields_encodeJ] at hop
    rw [decode, hop]
    exact ⟨_, rfl, rfl⟩
  case jalr =>
    obtain ⟨hf3, hop⟩ := funct3Bits_agree.mp h
    simp only [encode, fields_encodeI] at hf3 hop
    rw [decode, hop, hf3]
    exact ⟨_, rfl, rfl⟩
  case beq | bne | blt | bge | bltu | bgeu =>
    obtain ⟨hf3, hop⟩ := funct3Bits_agree.mp h
    simp only [encode, fields_encodeB] at hf3 hop
    rw [decode_branch hop, decodeBranch, hf3]
    exact ⟨_, rfl, rfl⟩
  case lb | lh | lw | lbu | lhu =>
    obtain ⟨hf3, hop⟩ := funct3Bits_agree.mp h
    simp only [encode, fields_encodeI] at hf3 hop
    rw [decode_load hop, decodeLoad, hf3]
    exact ⟨_, rfl, rfl⟩
  case sb | sh | sw =>
    obtain ⟨hf3, hop⟩ := funct3Bits_agree.mp h
    simp only [encode, fields_encodeS] at hf3 hop
    rw [decode_store hop, decodeStore, hf3]
    exact ⟨_, rfl, rfl⟩
  case addi | slti | sltiu | xori | ori | andi =>
    obtain ⟨hf3, hop⟩ := funct3Bits_agree.mp h
    simp only [encode, fields_encodeI] at hf3 hop
    rw [decode_opImm hop, decodeOpImm, hf3]
    exact ⟨_, rfl, rfl⟩
  case slli | srli | srai =>
    obtain ⟨hf7, hf3, hop⟩ := funct7Bits_agree.mp h
    simp only [encode, fields_encodeR] at hf7 hf3 hop
    rw [decode_opImm hop, decodeOpImm, hf3, hf7]
    exact ⟨_, rfl, rfl⟩
  case add | sub | sll | slt | sltu | xor | srl | sra | or | and =>
    obtain ⟨hf7, hf3, hop⟩ := funct7Bits_agree.mp h
    simp only [encode, fields_encodeR] at hf7 hf3 hop
    rw [decode_op hop, decodeOp, hf3, hf7]
    exact ⟨_, rfl, rfl⟩
  case fence =>
    obtain ⟨hf3, hop⟩ := funct3Bits_agree.mp h
    simp only [encode_fence, fields_encodeI] at hf3 hop
    rw [decode_miscMem hop, decodeMiscMem, hf3]
    exact ⟨_, rfl, rfl⟩
  case fenceI =>
    obtain ⟨hf3, hop⟩ := funct3Bits_agree.mp h
    simp only [encode, fields_encodeI] at hf3 hop
    rw [decode_miscMem hop, decodeMiscMem, hf3]
    exact ⟨_, rfl, rfl⟩
  case ecall | ebreak | mret | wfi | dret =>
    obtain rfl : w = _ := by simpa only [fixedBits, BitVec.and_allOnes] using h
    exact ⟨_, rfl, rfl⟩
  case csrrw | csrrs | csrrc | csrrwi | csrrsi | csrrci =>
    obtain ⟨hf3, hop⟩ := funct3Bits_agree.mp h
    simp only [encode, fields_encodeI] at hf3 hop
    rw [decode_system hop, decodeSystem, hf3]
    exact ⟨_, rfl, rfl⟩
  case lrW =>
    obtain ⟨hf5, hrs2, hf3, hop⟩ := loadReservedBits_agree.mp h
    simp only [encode, fields_encodeAmo, funct5Of_encodeAmo] at hf5 hrs2 hf3 hop
    rw [decode_amo hop, decodeAmo, hf3, hf5, hrs2]
    exact ⟨_, rfl, rfl⟩
  case scW | amoswapW | amoaddW | amoxorW | amoandW | amoorW | amominW | amomaxW | amominuW | amomaxuW =>
    obtain ⟨hf5, hf3, hop⟩ := funct5Bits_agree.mp h
    simp only [encode, fields_encodeAmo, funct5Of_encodeAmo] at hf5 hf3 hop
    rw [decode_amo hop, decodeAmo, hf3, hf5]
    exact ⟨_, rfl, rfl⟩

/-- A word that selects a row of the table decodes to an instruction of that row. -/
theorem decode_of_selects {r : OpcodeRow} {w : Word} (hr : r ∈ opcodeRows) (h : r.selects w = true) :
    ∃ i, decode w = .ok i ∧ rowOf i = r := by
  obtain ⟨j, rfl⟩ := exists_rowOf hr
  obtain ⟨i, hi, hbits⟩ := decode_of_rowOf_selects h
  refine ⟨i, hi, ?_⟩
  rw [rowOf_selects_iff] at h
  rw [rowOf, rowOf, decode_reencodes w i hi, hbits, h]

/-- The row of the instruction a word decodes to is one the word selects. -/
theorem rowOf_selects_of_decode {w : Word} {i : Instr} (h : decode w = .ok i) : (rowOf i).selects w = true := by
  have hsel := rowOf_selects_encode i
  rwa [decode_reencodes w i h] at hsel

end Sys2Proof
end

section
/-! The decoder and the opcode table (30_encoding R158, R160). -/

namespace Sys2Proof
open Machine

/-- Settles O3: what is decoded has its row in the table by `rowOf_mem`, and a row that is selected has an instruction
by `decode_of_selects`. -/
theorem decoderAcceptsExactlyTheTable : Obligations.DecoderAcceptsExactlyTheTable := by
  refine ⟨rfl, fun w => ⟨?_, ?_⟩⟩
  · rintro ⟨i, hi⟩
    exact ⟨rowOf i, rowOf_mem i, rowOf_selects_of_decode hi⟩
  · rintro ⟨r, hr, hsel⟩
    obtain ⟨i, hi, -⟩ := decode_of_selects hr hsel
    exact ⟨i, hi⟩

/-- Settles O4: both rows are that of the one instruction the word decodes to. -/
theorem noWordMatchesTwoRows : Obligations.NoWordMatchesTwoRows := by
  intro w r hr q hq hsr hsq
  obtain ⟨i, hi, rfl⟩ := decode_of_selects hr hsr
  obtain ⟨j, hj, rfl⟩ := decode_of_selects hq hsq
  rw [hi] at hj
  rw [Except.ok.inj hj]

/-- A word that selects no row of the table decodes to nothing. -/
theorem decode_unlisted {w : Word} (h : ∀ r ∈ opcodeRows, r.selects w = false) : ∃ e, decode w = .error e := by
  cases hd : decode w with
  | error e => exact ⟨e, rfl⟩
  | ok i => exact absurd (rowOf_selects_of_decode hd) (by rw [h _ (rowOf_mem i)]; decide)

/-- The cycle at a boundary where the word fetched is none of the table. -/
theorem cycle_unlisted {s : State} {w : Word} {e : DecodeError} (hr : Running s) (hn : NoInterrupt s)
    (h : s.pc.toNat % 4 = 0) (hf : fetch s s.pc = some w) (hd : decode w = .error e) :
    cycle s = .next (afterStep (raise .illegalInstruction w { s with waiting := false })) := by
  rw [cycle_startsInstruction hr hn, fetchDecodeExec_unlisted (s := { s with waiting := false }) h hf hd]
  rfl

/-- Settles O8: the word decodes to nothing by `decode_unlisted`, and what the cycle then raises is a trap in M-mode
and the end of the program buffer in D-mode by `raise_raises`. -/
theorem unlistedWordTraps : Obligations.UnlistedWordTraps := by
  intro s w hw
  obtain ⟨e, hd⟩ := decode_unlisted hw
  constructor
  · intro hr hn hpc hf
    refine ⟨_, (raise_raises .illegalInstruction w { deliver s with waiting := false }).1 hr.mode, ?_⟩
    rw [step, cycle_unlisted hr hn hpc hf hd]
    rfl
  · intro hr hm k hk hpb
    refine ⟨_, (raise_raises .illegalInstruction w (deliver s)).2 hm, ?_⟩
    rw [step, cycle_D hr hm, cycleD_unlisted hk hpb hd]
    rfl

/-- Settles O5: each word is evaluated by the decoder. -/
theorem exampleWordsDecode : Obligations.ExampleWordsDecode :=
  ⟨rfl, rfl, rfl, rfl, rfl, rfl, rfl, rfl⟩

end Sys2Proof
end

section
/-! SUPPORT. The results of the integer computational instructions as numbers and bits (40_integer_computational R223;
30_encoding R140, R143, R145): comparisons, shifts, and immediates added, compared and combined. -/

namespace Sys2Proof
namespace Machine

/-- An instruction that ends in `writeRd` yields the value it writes. -/
theorem yields_of_exec {i : Instr} {rd : RegNum} {v : Word} {s : State} {P : Word → Prop}
    (h : exec i s = writeRd rd v s) (hv : P v) : Yields i s rd P := by
  obtain ⟨t, ht, hcomputes⟩ := writeRd_computes rd v s
  exact ⟨v, t, h.trans ht, hv, hcomputes⟩

/-! ### Comparisons (R223) -/

theorem boolWord_toNat (b : Bool) : (boolWord b).toNat = if b then 1 else 0 := by cases b <;> rfl

theorem boolWord_ltSigned_toNat (a b : Word) :
    (boolWord (ltSigned a b)).toNat = if a.toInt < b.toInt then 1 else 0 := by
  simp only [boolWord_toNat, ltSigned, BitVec.slt_iff_toInt_lt]

theorem boolWord_ltUnsigned_toNat (a b : Word) :
    (boolWord (ltUnsigned a b)).toNat = if a.toNat < b.toNat then 1 else 0 := by
  simp only [boolWord_toNat, ltUnsigned, BitVec.ult_iff_lt, BitVec.lt_def]

/-! ### Differences (00_scope R10) -/

theorem sub_toNat (a b : Word) : ((a - b).toNat : Int) = ((a.toNat : Int) - b.toNat) % 2 ^ 32 := by
  have ha := a.isLt
  have hb := b.isLt
  rw [BitVec.toNat_sub]
  omega

/-! ### Shifts (R223; 30 R145) -/

theorem shiftAmount_toNat (v : Word) : (shiftAmount v).toNat = v.toNat % 32 := by
  rw [shiftAmount, BitVec.extractLsb'_toNat, Nat.shiftRight_zero]

theorem shiftLeft_toNat (v : Word) (n : BitVec 5) : (shiftLeft v n).toNat = v.toNat * 2 ^ n.toNat % 2 ^ 32 := by
  rw [shiftLeft, BitVec.toNat_shiftLeft, Nat.shiftLeft_eq]

theorem shiftRightLogical_toNat (v : Word) (n : BitVec 5) :
    (shiftRightLogical v n).toNat = v.toNat / 2 ^ n.toNat := by
  rw [shiftRightLogical, BitVec.toNat_ushiftRight, Nat.shiftRight_eq_div_pow]

/-- Copies of bit 31 entering round the quotient towards minus infinity. -/
theorem shiftRightArith_toInt (v : Word) (n : BitVec 5) :
    (shiftRightArith v n).toInt = Int.fdiv v.toInt (2 ^ n.toNat) := by
  rw [shiftRightArith, BitVec.toInt_sshiftRight, Int.shiftRight_eq_div_pow,
    Int.fdiv_eq_ediv_of_nonneg _ (by positivity)]
  norm_cast

/-! ### Sign-extended immediates (30 R140) -/

theorem sext_toInt (imm : BitVec 12) : (sext imm).toInt = imm.toInt := BitVec.toInt_signExtend_of_le (by decide)

theorem sext_toNat {n : Nat} (v : BitVec n) : ((sext v).toNat : Int) = v.toInt % 2 ^ 32 := by
  rw [sext, BitVec.signExtend, BitVec.toNat_ofInt, Int.toNat_of_nonneg (Int.emod_nonneg _ (by decide))]
  norm_cast

/-- A word plus a sign-extended immediate or offset is their sum modulo 2^32. -/
theorem isSum_add_sext {n : Nat} (a : Word) (v : BitVec n) : IsSum (a + sext v) a v.toInt := by
  rw [IsSum, BitVec.toNat_add]
  push_cast
  rw [sext_toNat]
  exact Int.add_emod_emod ..

theorem boolWord_ltUnsigned_sext_toNat (a : Word) (imm : BitVec 12) :
    (boolWord (ltUnsigned a (sext imm))).toNat = if (a.toNat : Int) < imm.toInt % 2 ^ 32 then 1 else 0 := by
  simp only [boolWord_ltUnsigned_toNat, ← sext_toNat, Int.ofNat_lt]

/-- The bits from bit 11 up are copies of bit 11. -/
theorem sext_getLsbD (imm : BitVec 12) {k : Nat} (hk : k < 32) : (sext imm).getLsbD k = imm.getLsbD (min k 11) := by
  rw [sext, BitVec.getLsbD_signExtend, decide_eq_true hk, Bool.true_and]
  split
  case isTrue hlow => rw [Nat.min_eq_left (Nat.le_of_lt_succ hlow)]
  case isFalse hhigh => rw [Nat.min_eq_right (by omega), BitVec.msb_eq_getLsbD_last]

/-! ### Upper immediates (30 R143) -/

theorem immU_toNat (imm : BitVec 20) : (immU imm).toNat = imm.toNat * 4096 := by
  rw [immU, BitVec.toNat_append, BitVec.toNat_zero, Nat.or_zero, Nat.shiftLeft_eq]

end Machine
end Sys2Proof
end

section
/-! The integer computational instructions (40_integer_computational R201 to R223). -/

namespace Sys2Proof
namespace Machine

/-- Settles O10: each instruction ends in `writeRd`, and what it writes is the number or the bits its result lemma
says; the amount of a shift is `shiftAmount_toNat`. -/
theorem registerRegisterResults : Obligations.RegisterRegisterResults := by
  intro s rd rs1 rs2 a b
  have amount : (shiftAmount b).toNat = b.toNat % 32 := shiftAmount_toNat b
  refine ⟨?add, ?sub, ?sll, ?slt, ?sltu, ?xor, ?srl, ?sra, ?or, ?and⟩
  case add => exact yields_of_exec rfl (BitVec.toNat_add a b)
  case sub => exact yields_of_exec rfl (sub_toNat a b)
  case sll => exact yields_of_exec rfl (amount ▸ shiftLeft_toNat a (shiftAmount b))
  case slt => exact yields_of_exec rfl (boolWord_ltSigned_toNat a b)
  case sltu => exact yields_of_exec rfl (boolWord_ltUnsigned_toNat a b)
  case xor => exact yields_of_exec rfl fun _ _ => BitVec.getLsbD_xor
  case srl => exact yields_of_exec rfl (amount ▸ shiftRightLogical_toNat a (shiftAmount b))
  case sra => exact yields_of_exec rfl (amount ▸ shiftRightArith_toInt a (shiftAmount b))
  case or => exact yields_of_exec rfl fun _ _ => BitVec.getLsbD_or
  case and => exact yields_of_exec rfl fun _ _ => BitVec.getLsbD_and

/-- Settles O11: as for O10, with the immediate read by the `sext` lemmas. -/
theorem registerImmediateResults : Obligations.RegisterImmediateResults := by
  intro s rd rs1 imm shamt a
  refine ⟨?addi, ?slti, ?sltiu, ?xori, ?ori, ?andi, ?slli, ?srli, ?srai⟩
  case addi => exact yields_of_exec rfl (isSum_add_sext a imm)
  case slti => exact yields_of_exec rfl (sext_toInt imm ▸ boolWord_ltSigned_toNat a (sext imm))
  case sltiu => exact yields_of_exec rfl (boolWord_ltUnsigned_sext_toNat a imm)
  case xori => exact yields_of_exec rfl fun k hk => sext_getLsbD imm hk ▸ BitVec.getLsbD_xor
  case ori => exact yields_of_exec rfl fun k hk => sext_getLsbD imm hk ▸ BitVec.getLsbD_or
  case andi => exact yields_of_exec rfl fun k hk => sext_getLsbD imm hk ▸ BitVec.getLsbD_and
  case slli => exact yields_of_exec rfl (shiftLeft_toNat a shamt)
  case srli => exact yields_of_exec rfl (shiftRightLogical_toNat a shamt)
  case srai => exact yields_of_exec rfl (shiftRightArith_toInt a shamt)

/-- Settles O12: LUI writes the upper immediate, and AUIPC in M-mode adds it to the pc. -/
theorem upperImmediateResults : Obligations.UpperImmediateResults := by
  intro s rd imm
  refine ⟨yields_of_exec rfl (immU_toNat imm), fun hm => ?_⟩
  have hexec : exec (.auipc rd imm) s = writeRd rd (s.pc + immU imm) s :=
    congrArg (writeRd rd · s) (if_pos hm)
  refine yields_of_exec hexec ?_
  rw [BitVec.toNat_add, immU_toNat]

end Machine
end Sys2Proof
end

section
/-! SUPPORT. The control transfer instructions in M-mode (41_control_transfer R241 to R251): targets as numbers, which
transfers land and which are reported, and the common ending of the jumps and of the branches. -/

namespace Sys2Proof
namespace Machine

/-! ### Targets (R241, R242, R251) -/

/-- A base and an offset have one sum modulo 2^32. -/
theorem IsSum.unique {a b base : Word} {offset : Int} (ha : IsSum a base offset) (hb : IsSum b base offset) : a = b :=
  BitVec.eq_of_toNat_eq (Int.ofNat_inj.mp (ha.trans hb.symm))

/-- The address after `a`. -/
theorem isSum_next (a : Word) : IsSum (a + 4) a 4 := isSum_add_sext a 4#13

/-- JALR's mask clears bit 0 and keeps the bits above it. -/
theorem and_fffffffe_toNat (v : Word) : (v &&& 0xFFFFFFFE#32).toNat = v.toNat / 2 * 2 := by
  have heven := jalr_target_even v
  have hhigh : (v &&& 0xFFFFFFFE#32).toNat / 2 = v.toNat / 2 := by
    have hmask : (0xFFFFFFFE#32).toNat / 2 = 2 ^ 31 - 1 := rfl
    have hv := v.isLt
    rw [BitVec.toNat_and, Nat.and_div_two, hmask, Nat.and_two_pow_sub_one_eq_mod]
    omega
  omega

/-! ### Landing and reporting (R243) -/

/-- A jump itself reports exactly the targets that do not land. -/
theorem reports_iff (s : State) (target : Word) :
    (misalignedTarget target && s.cfg.misaligned == .atJump) = true ↔ ¬ Lands s target := by
  cases hr : s.cfg.misaligned <;> simp [misalignedTarget, Lands, hr]

section
variable {s : State} {target : Word} {link : State → State}

theorem jumpTo_lands (h : Lands s target) : jumpTo target link s = { link s with pc := target } :=
  if_neg ((reports_iff s target).not_left.mpr h)

theorem jumpTo_reports (h : ¬ Lands s target) :
    jumpTo target link s = raise .instructionAddressMisaligned target s := if_pos ((reports_iff s target).mpr h)

end

/-! ### The common endings -/

theorem advance_of_M {s : State} (hm : s.mode = .M) : s.advance = { s with pc := s.pc + 4 } := by
  rw [State.advance, if_pos hm, if_pos hm]

section
variable {i : Instr} {s : State}

/-- JAL and JALR: the link and the target, or the report with no link. -/
theorem jumpGoes_of_exec {rd : RegNum} {target : Word} (hm : s.mode = .M) (hi : exec i s = linkAndJump rd target s) :
    JumpGoes i s rd target := by
  have hexec : exec i s = .next (jumpTo target (·.setReg rd (s.pc + 4)) s) := hi.trans (if_pos hm)
  constructor
  case left =>
    intro hlands
    rw [jumpTo_lands hlands] at hexec
    exact ⟨_, hexec, fun r => getReg_setReg s rd r (s.pc + 4), rfl, fun _ => rfl, rfl⟩
  case right =>
    intro hreports
    rw [jumpTo_reports hreports] at hexec
    exact raisesOn_of_exec hexec

/-- The branches: the next instruction when not taken; when taken, the target or the report. -/
theorem branchGoes_of_exec {taken : Bool} {off : BitVec 13} {cond : Prop} (hm : s.mode = .M)
    (hi : exec i s = branch taken off s) (hc : taken = true ↔ cond) : BranchGoes i s off cond := by
  have hexec : exec i s = .next (if taken then jumpTo (s.pc + sext off) id s else s.advance) := hi.trans (if_pos hm)
  constructor
  case left =>
    intro hnot
    rw [if_neg (mt hc.mp hnot), advance_of_M hm] at hexec
    exact ⟨_, hexec, isSum_next s.pc, rfl⟩
  case right =>
    intro hcond target htarget
    rw [if_pos (hc.mpr hcond), (isSum_add_sext s.pc off).unique htarget] at hexec
    exact ⟨fun hlands => hexec.trans (congrArg _ (jumpTo_lands hlands)),
      fun hreports => raisesOn_of_exec (hexec.trans (congrArg _ (jumpTo_reports hreports)))⟩

end

/-! ### The six conditions (R244 to R249) -/

theorem beq_iff_toNat (a b : Word) : (a == b) = true ↔ a.toNat = b.toNat := beq_iff_eq.trans BitVec.toNat_inj.symm

theorem bne_iff_toNat (a b : Word) : (a != b) = true ↔ a.toNat ≠ b.toNat := bne_iff_ne.trans BitVec.toNat_inj.symm.not

theorem ltSigned_iff (a b : Word) : ltSigned a b = true ↔ a.toInt < b.toInt := BitVec.slt_iff_toInt_lt

theorem not_ltSigned_iff (a b : Word) : (!ltSigned a b) = true ↔ b.toInt ≤ a.toInt := by
  rw [Bool.not_eq_true', ← Bool.not_eq_true, ltSigned_iff, Int.not_lt]

theorem ltUnsigned_iff (a b : Word) : ltUnsigned a b = true ↔ a.toNat < b.toNat := BitVec.ult_iff_lt

theorem not_ltUnsigned_iff (a b : Word) : (!ltUnsigned a b) = true ↔ b.toNat ≤ a.toNat := by
  rw [Bool.not_eq_true', ← Bool.not_eq_true, ltUnsigned_iff, Nat.not_lt]

end Machine
end Sys2Proof
end

section
/-! The control transfer instructions (41_control_transfer R241 to R251). -/

namespace Sys2Proof
namespace Machine

/-- Settles O13: JAL and JALR share `linkAndJump` and differ in the target, which is the one number the statement
names. -/
theorem jumpsLinkAndGo : Obligations.JumpsLinkAndGo := by
  intro s rd rs1 off imm sum target hm
  constructor
  case left =>
    intro htarget
    obtain rfl : s.pc + sext off = target := (isSum_add_sext s.pc off).unique htarget
    exact jumpGoes_of_exec hm rfl
  case right =>
    intro hsum htarget
    obtain rfl : s.getReg rs1 + sext imm = sum := (isSum_add_sext _ imm).unique hsum
    obtain rfl : (s.getReg rs1 + sext imm) &&& 0xFFFFFFFE#32 = target :=
      BitVec.eq_of_toNat_eq ((and_fffffffe_toNat _).trans htarget.symm)
    exact jumpGoes_of_exec hm rfl

/-- Settles O14: the branches share `branch` and differ in the condition, read as numbers by its own lemma. -/
theorem branchesCompareAndGo : Obligations.BranchesCompareAndGo := by
  intro s rs1 rs2 off hm a b
  refine ⟨?beq, ?bne, ?blt, ?bge, ?bltu, ?bgeu⟩
  case beq => exact branchGoes_of_exec hm rfl (beq_iff_toNat a b)
  case bne => exact branchGoes_of_exec hm rfl (bne_iff_toNat a b)
  case blt => exact branchGoes_of_exec hm rfl (ltSigned_iff a b)
  case bge => exact branchGoes_of_exec hm rfl (not_ltSigned_iff a b)
  case bltu => exact branchGoes_of_exec hm rfl (ltUnsigned_iff a b)
  case bgeu => exact branchGoes_of_exec hm rfl (not_ltUnsigned_iff a b)

end Machine
end Sys2Proof
end

section
/-! SUPPORT. What a load from storage yields and what a store to storage changes, said once for every width
(42_load_store R261 to R269; 20_memory R91, R98). -/

namespace Sys2Proof
namespace Machine

/-! ### Loads (R261 to R265) -/

/-- A load from storage yields the bytes of its cells, widened, and only computes. -/
theorem yields_of_load {i : Instr} {z : AccessSize} {ext : Word → Word} {rd : RegNum} {ea : Word} {s : State} {c : Nat}
    {P : Word → Prop} (hi : exec i s = loadOp z ext rd ea s) (ha : ea.toNat % z.bytes = 0)
    (hc : ReachesStorage s ea c) (hP : P (ext (Memory.load s.mem z c))) : Yields i s rd P :=
  yields_of_exec (hi.trans (loadOp_storage z ext rd ea s c (aligned_iff.mpr ha) hc)) hP

/-- Bytes put side by side, the sign being the upper part's. -/
theorem append_byte_toInt {n : Nat} (hi : BitVec (n + 1)) (lo : Byte) :
    (hi ++ lo).toInt = hi.toInt * 256 + lo.toNat := by
  rw [BitVec.toInt_append, if_neg (by simp), Int.mul_comm]
  rfl

theorem lb_value (m : Memory) (c : Nat) : (sextByte (Memory.load m .byte c)).toInt = (Memory.read m c).toInt := by
  rw [sextByte, Memory.load, BitVec.setWidth_setWidth_of_le _ (by decide), BitVec.setWidth_eq,
    BitVec.toInt_signExtend_of_le (by decide)]

theorem lh_value (m : Memory) (c : Nat) :
    (sextHalf (Memory.load m .half c)).toInt = (Memory.read m (c + 1)).toInt * 256 + (Memory.read m c).toNat := by
  rw [sextHalf, Memory.load, BitVec.setWidth_setWidth_of_le _ (by decide), BitVec.setWidth_eq,
    BitVec.toInt_signExtend_of_le (by decide), append_byte_toInt]

/-! ### Stores (R266 to R268) -/

/-- Byte `k` of a word, as a slice and as a digit to the base 256. -/
theorem extractLsb'_eq_digit (v : Word) (k : Nat) : v.extractLsb' (8 * k) 8 = BitVec.ofNat 8 (v.toNat / 256 ^ k) := by
  rw [BitVec.extractLsb', Nat.shiftRight_eq_div_pow, Nat.pow_mul]

theorem store_bytesStored {s t : State} {z : AccessSize} {c : Nat} {v : Word}
    (h : t.mem = Memory.store s.mem z c v) : BytesStored c z.bytes v s t := by
  intro d
  rw [h, Memory.read_store, extractLsb'_eq_digit]

theorem store_staleAfterStore {s t : State} {z : AccessSize} {c : Nat} {v : Word}
    (h : t.stale = (writeStorage z c v s).stale) : StaleAfterStore c z.bytes s t := by
  intro d w
  rw [h]
  exact writeStorage_remembers z c v s d w

/-- A store to storage writes its bytes and changes only what any store may. -/
theorem storesBytes_of_store {i : Instr} {z : AccessSize} {ea v : Word} {s : State} {c : Nat}
    (hi : exec i s = storeOp z ea v s) (ha : ea.toNat % z.bytes = 0) (hc : ReachesStorage s ea c) :
    StoresBytes i s ea c z.bytes v := by
  refine ⟨_, hi.trans (storeOp_storage z ea v s c (aligned_iff.mpr ha) hc), ?bytes, ?registers, ?next, ?reservation,
    ?remembered, ?frame⟩
  case bytes => exact store_bytesStored rfl
  case registers => exact getReg_congr rfl
  case next => exact advance_goesOn (breakReservation ea (writeStorage z c v s))
  case reservation => exact breakReservation_covered ea (writeStorage z c v s)
  case remembered => exact store_staleAfterStore (v := v) rfl
  case frame => rfl

end Machine
end Sys2Proof
end

section
/-! The loads and stores (42_load_store R260 to R269). -/

namespace Sys2Proof
namespace Machine

/-- Settles O16: the sum is `isSum_add_sext`, and the base of `x0` reads 0. -/
theorem effectiveAddressIsBasePlusDisplacement : Obligations.EffectiveAddressIsBasePlusDisplacement := by
  intro s rs1 imm
  have hsum : IsSum (s.effectiveAddress rs1 imm) (s.getReg rs1) imm.toInt := isSum_add_sext (s.getReg rs1) imm
  refine ⟨hsum, fun hzero => ?_⟩
  rwa [show s.getReg rs1 = 0 from hzero ▸ getReg_zero s] at hsum

/-- Settles O17: each load is `loadOp` at its width, and what it yields is the number its value lemma says; a byte is
always aligned. -/
theorem loadsFromStorage : Obligations.LoadsFromStorage := by
  intro s rd rs1 imm c ea byte hc
  have byteAligned : ea.toNat % AccessSize.byte.bytes = 0 := Nat.mod_one _
  refine ⟨?lb, ?lbu, fun ha => ⟨?lh, ?lhu⟩, fun ha => ?lw⟩
  case lb => exact yields_of_load rfl byteAligned hc (lb_value s.mem c)
  case lbu => exact yields_of_load rfl byteAligned hc (lbu_value s.mem c)
  case lh => exact yields_of_load rfl ha hc (lh_value s.mem c)
  case lhu => exact yields_of_load rfl ha hc (lhu_value s.mem c)
  case lw => exact yields_of_load (ext := id) rfl ha hc (lw_value s.mem c)

/-- Settles O18: each store is `storeOp` at its width; a byte is always aligned. -/
theorem storesToStorage : Obligations.StoresToStorage := by
  intro s rs1 rs2 imm c ea hc
  have byteAligned : ea.toNat % AccessSize.byte.bytes = 0 := Nat.mod_one _
  refine ⟨?sb, fun ha => ?sh, fun ha => ?sw⟩
  case sb => exact storesBytes_of_store (z := .byte) rfl byteAligned hc
  case sh => exact storesBytes_of_store (z := .half) rfl ha hc
  case sw => exact storesBytes_of_store (z := .word) rfl ha hc

end Machine
end Sys2Proof
end

section
/-! The memory ordering instructions and the code they make visible (43_fence R280 to R282; 20_memory R118). -/

namespace Sys2Proof
namespace Machine

/-! ### FENCE.I (R281) -/

/-- FENCE.I where it is implemented. -/
theorem exec_fenceI {s : State} (h : s.cfg.hasZifencei = true) (imm : BitVec 12) (rs1 rd : RegNum) :
    exec (.fenceI imm rs1 rd) s = .next { s.advance with stale := [] } := if_pos h

/-- FENCE.I where it is not implemented. -/
theorem exec_fenceI_illegal {s : State} {imm : BitVec 12} {rs1 rd : RegNum} (h : s.cfg.hasZifencei = false) :
    exec (.fenceI imm rs1 rd) s = .next (illegal (.fenceI imm rs1 rd) s) := if_neg (by simp [h])

/-- After FENCE.I no word is remembered, so that a fetch gives what storage holds. -/
theorem fetch_after_fenceI {s : State} {a : Word} {c : Nat} (h : fetchCell s.cfg.imap a.toNat = some c) :
    fetch { s.advance with stale := [] } a = some (wordAt s.mem c) :=
  fetch_current (s := { s.advance with stale := [] }) ⟨h, by simp⟩

/-! ### Stored code (R282) -/

/-- A word stored reads back from its own cell. -/
theorem wordAt_store_word (m : Memory) (c : Nat) (v : Word) : wordAt (Memory.store m .word c v) c = v :=
  Memory.load_store_word m c v

/-- A store remembers what each word it falls into held: where nothing was remembered before it, a fetch after it gives
the word as it is now or as it was (20 R118). -/
theorem fetch_after_store {s t : State} {a : Word} {c n d : Nat} (hstore : StaleAfterStore c n s t)
    (hnone : s.stale = []) (hd : fetchCell t.cfg.imap a.toNat = some d) :
    fetch t a = some (wordAt t.mem d) ∨ fetch t a = some (wordAt s.mem d) := by
  have hw : fetch t a = some (fetchWord t d) := congrArg (Option.map (fetchWord t)) hd
  rcases (fetchGivesOldOrNewWord t a).2 d _ hd hw with hnew | hremembered
  · exact .inl (hnew ▸ hw)
  · rcases (hstore d _).mp hremembered with hbefore | ⟨-, -, hold⟩
    · simp [hnone] at hbefore
    · exact .inr (hold ▸ hw)

/-! ### The obligations -/

/-- Settles O26: the two clauses are the two branches of FENCE.I. -/
theorem fenceIDropsEarlyWords : Obligations.FenceIDropsEarlyWords := by
  intro s imm rs1 rd
  constructor
  · intro h
    exact ⟨_, exec_fenceI h imm rs1 rd, advance_goesOn s, getReg_congr rfl, fun _ => rfl, rfl,
      fun _ _ => fetch_after_fenceI⟩
  · intro h
    exact ⟨_, exec_fenceI_illegal h, illegal_raises _ s⟩

/-- Settles O28: the SW leaves the maps alone and remembers what `storesBytes_of_store` says, which is what a fetch
before FENCE.I can give; after it nothing is remembered. -/
theorem storedCodeIsSeenAfterFenceI : Obligations.StoredCodeIsSeenAfterFenceI := by
  intro s t rs1 rs2 imm a c d ea ha hc hd h
  obtain ⟨hmem, -, hcfg⟩ := store_storage (z := .word) rfl ha hc h
  obtain ⟨u, hu, -, -, -, -, hstale, -⟩ :=
    storesBytes_of_store (i := .sw rs1 rs2 imm) (z := .word) rfl ha hc
  obtain rfl : u = t := Host.Outcome.next.inj (hu.symm.trans h)
  rw [← hcfg] at hd ⊢
  refine ⟨?stored, fun hnone => fetch_after_store hstale hnone hd,
    fun hz => ⟨_, exec_fenceI hz 0 0 0, fetch_after_fenceI hd⟩⟩
  case stored =>
    rintro rfl
    rw [hmem, wordAt_store_word]

/-- Settles O25: FENCE is `State.advance`. -/
theorem fenceOnlyGoesOn : Obligations.FenceOnlyGoesOn := fun s _ _ _ _ _ =>
  ⟨s.advance, rfl, advance_goesOn s, getReg_congr rfl, fun _ => rfl, rfl⟩

end Machine
end Sys2Proof
end

section
/-! SUPPORT. The system instructions (44_system_csr R290 to R302): one equation for each branch of each of them, what a
CSR access that passes the checks does, and the boundary at which the hart waits. -/

namespace Sys2Proof
namespace Machine

/-! ### ECALL, EBREAK, MRET, WFI and DRET, by mode (R290, R291, R300 to R302) -/

section
variable {s : State}

theorem mode_ne_M (h : s.mode = .D) : s.mode ≠ .M := by
  rw [h]
  decide

theorem exec_ecall_M (h : s.mode = .M) : exec .ecall s = .next (raise .envCallFromMMode 0 s) := if_pos h

theorem exec_ecall_D (h : s.mode = .D) : exec .ecall s = .refused .ecallInDebugMode := if_neg (mode_ne_M h)

/-- EBREAK with `dcsr`.ebreakm set (60 R472). -/
theorem exec_ebreak_halts (h : s.mode = .M) (hb : s.dcsr.getLsbD 15 = true) :
    exec .ebreak s = .next (enterDebug 1 s.pc s) := (if_pos h).trans (if_pos hb)

/-- EBREAK with `dcsr`.ebreakm clear (60 R405). -/
theorem exec_ebreak_traps (h : s.mode = .M) (hb : s.dcsr.getLsbD 15 = false) :
    exec .ebreak s = .next (raise .breakpoint (if Config.breakpointTval s.free then s.pc else 0) s) :=
  (if_pos h).trans (if_neg (Bool.not_eq_true _ ▸ hb))

/-- EBREAK in the program buffer (60 R476). -/
theorem exec_ebreak_D (h : s.mode = .D) : exec .ebreak s = .next { s with dm := { s.dm with pbIndex := none } } :=
  if_neg (mode_ne_M h)

theorem exec_mret_M (h : s.mode = .M) : exec .mret s = .next (trapReturn s) := if_pos h

theorem exec_wfi_M (h : s.mode = .M) : exec .wfi s = .next { s.advance with waiting := true } := if_pos h

theorem exec_wfi_D (h : s.mode = .D) : exec .wfi s = .refused .wfiInDebugMode := if_neg (mode_ne_M h)

theorem exec_dret_M (h : s.mode = .M) : exec .dret s = .next (illegal .dret s) := if_pos h

theorem exec_dret_D (h : s.mode = .D) : exec .dret s = .next (leaveDebug s) := if_neg (mode_ne_M h)

/-- An exception in M-mode is a trap. -/
theorem raise_traps (h : s.mode = .M) (e : Exc) (v : Word) : Traps false (excCode e).toNat v s.pc s (raise e v s) :=
  (raise_raises e v s).1 h

/-! ### The resume request (60 R477) -/

theorem hartStatus_halted (h : s.mode = .D) (hr : s.inReset = false) (hs : s.dm.hartsel = 0) :
    s.hartStatus = .halted := by simp [State.hartStatus, h, hr, hs]

theorem applyInput_resumereq (h : s.hartStatus = .halted) (hb : s.dm.pbIndex = none) :
    applyInput s .resumereq = leaveDebug s := if_pos ⟨h, hb⟩

/-- Leaving D-mode while the program buffer does not run leaves the Debug Module alone. -/
theorem leaveDebug_of_idle (hb : s.dm.pbIndex = none) :
    leaveDebug s =
      { s with
        pc := s.dpc, mode := .M, stepping := s.dcsr.getLsbD 2, scLoop := s.parkedLoop s.dpc,
        scParked := s.parkedRest s.dpc } := by
  have hdm : { s.dm with pbIndex := none } = s.dm := by rw [← hb]
  rw [leaveDebug, hdm]
  rfl

/-! ### Waiting (R301; 60 R424) -/

/-- A step without inputs is a cycle and the timer's advance. -/
theorem step_of_no_inputs (h : s.inbox = []) : step s = mapNext (tick s) (cycle s) := by
  have hd : deliver s = s := by rw [deliver, h]
  rw [step, hd]

/-- The wait goes on: the hart does nothing for a cycle. -/
theorem step_waits (hi : s.inbox = []) (hr : s.inReset = false) (hm : s.mode = .M) (hh : s.dm.haltreq = false)
    (hw : (s.waiting && !s.wakes && !Config.wakeUp s.free) = true) : step s = .next (tick s s) := by
  rw [step_of_no_inputs hi, cycle_M hr hm, cycleM_waits hh hw]
  rfl

/-- The wait ends: the hart goes on as if it had not waited. -/
theorem step_ends_wait (hi : s.inbox = []) (hr : s.inReset = false) (hm : s.mode = .M) (hh : s.dm.haltreq = false)
    (hw : (s.waiting && !s.wakes && !Config.wakeUp s.free) = false) : step s = step { s with waiting := false } := by
  have hcycle : cycle s = cycle { s with waiting := false } := by
    rw [cycle_M hr hm, cycle_M (s := { s with waiting := false }) hr hm, cycleM_starts hh hw,
      cycleM_starts (s := { s with waiting := false }) hh rfl]
  rw [step_of_no_inputs hi, step_of_no_inputs (s := { s with waiting := false }) hi, hcycle]
  rfl

/-- What ends a wait, whatever `mstatus`.MIE is (60 R424). -/
theorem wakes_iff : s.wakes = true ↔ s.mip &&& s.mie ≠ 0 := bne_iff_ne

end

/-! ### CSR accesses that pass the checks (R292 to R299) -/

/-- A CSR an instruction may access is the one its number names. -/
theorem csrOfNum_of_csrAccess {s : State} {n : CsrNum} {writes : Bool} {c : Csr}
    (h : csrAccess s n writes = some c) : csrOfNum n = some c := by
  unfold csrAccess at h
  split at h
  · cases h
  · rename_i d hd
    split_ifs at h
    exact hd.trans h

theorem csrAccess_of_allowed {s : State} {n : CsrNum} {writes : Bool} (h : CsrAllowed s n (writes = true)) :
    ∃ c, csrOfNum n = some c ∧ csrAccess s n writes = some c := by
  obtain ⟨c, hc⟩ := Option.ne_none_iff_exists'.mp (mt csrAccess_eq_none.mp (not_not_intro h))
  exact ⟨c, csrOfNum_of_csrAccess hc, hc⟩

/-- A CSR instruction that passes the checks: the old value in `rd`, and the CSR written if the instruction writes. -/
theorem csrInstr_accesses {i : Instr} {rd : RegNum} {n : CsrNum} {writes : Bool} {new : Word → Word} {s : State}
    (hi : exec i s = csrInstr i rd n writes new s) (h : CsrAllowed s n (writes = true)) :
    CsrAccesses i s rd n (writes = true) new := by
  obtain ⟨c, hc, haccess⟩ := csrAccess_of_allowed h
  obtain ⟨t, ht, hregs, hgoes, hstorage, hframe⟩ :=
    writeRd_computes rd (csrRead c s) (if writes then csrWrite c (new (csrRead c s)) s else s)
  have hexec : exec i s = .next t := by
    rw [hi, csrInstr, haccess]
    exact ht
  have hmem : (if writes then csrWrite c (new (csrRead c s)) s else s).mem = s.mem := by
    rw [apply_ite State.mem, csrWrite_mem, ite_self]
  exact ⟨c, _, t, hc, hexec, fun hw => if_pos hw, fun hw => if_neg hw, hregs, hgoes,
    fun b => (hstorage b).trans (by rw [hmem]), hframe⟩

/-- The setting and clearing forms, whose register number or immediate decides whether they write (R296). -/
theorem csrInstr_accesses_bne {i : Instr} {rd : RegNum} {n : CsrNum} {r : BitVec 5} {new : Word → Word} {s : State}
    (hi : exec i s = csrInstr i rd n (r != 0) new s) (h : CsrAllowed s n (r ≠ 0)) :
    CsrAccesses i s rd n (r ≠ 0) new := by
  have hacc := csrInstr_accesses hi (csrAllowed_bne.mpr h)
  rwa [bne_iff_ne] at hacc

/-- The writing forms (R296). -/
theorem csrInstr_accesses_writing {i : Instr} {rd : RegNum} {n : CsrNum} {new : Word → Word} {s : State}
    (hi : exec i s = csrInstr i rd n true new s) (h : CsrAllowed s n True) : CsrAccesses i s rd n True new := by
  rw [← eq_self true] at h ⊢
  exact csrInstr_accesses hi h

/-- Setting bits, bit by bit (R294, R298). -/
theorem setBits_eq (a : Word) :
    (fun old : Word => old ||| a) = fun old => BitVec.ofFnLE fun k => old[k] || a[k] := by
  ext old k hk
  simp

/-- Clearing bits, bit by bit (R295, R299). -/
theorem clearBits_eq (a : Word) :
    (fun old : Word => old &&& ~~~a) = fun old => BitVec.ofFnLE fun k => old[k] && !a[k] := by
  ext old k hk
  simp

/-- A setting form (R294, R298). -/
theorem csrSets_of_exec {i : Instr} {rd : RegNum} {n : CsrNum} {r : BitVec 5} {a : Word} {s : State}
    (hi : exec i s = csrInstr i rd n (r != 0) (fun old => old ||| a) s) (h : CsrAllowed s n (r ≠ 0)) :
    CsrAccesses i s rd n (r ≠ 0) (fun old => BitVec.ofFnLE (fun k => old[k] || a[k])) :=
  setBits_eq a ▸ csrInstr_accesses_bne hi h

/-- A clearing form (R295, R299). -/
theorem csrClears_of_exec {i : Instr} {rd : RegNum} {n : CsrNum} {r : BitVec 5} {a : Word} {s : State}
    (hi : exec i s = csrInstr i rd n (r != 0) (fun old => old &&& ~~~a) s) (h : CsrAllowed s n (r ≠ 0)) :
    CsrAccesses i s rd n (r ≠ 0) (fun old => BitVec.ofFnLE (fun k => old[k] && !a[k])) :=
  clearBits_eq a ▸ csrInstr_accesses_bne hi h

/-- `zext_5` by value (30 R146). -/
theorem zext5_eq_ofNat (u : BitVec 5) : zext5 u = BitVec.ofNat 32 u.toNat := (BitVec.ofNat_toNat 32 u).symm

end Machine
end Sys2Proof
end

section
/-! The system instructions (44_system_csr R290 to R302). -/

namespace Sys2Proof
namespace Machine

/-- Settles O29: the two clauses are the two modes. -/
theorem ecallTraps : Obligations.EcallTraps := fun _ =>
  ⟨fun hm => ⟨_, exec_ecall_M hm, raise_traps hm .envCallFromMMode 0⟩, exec_ecall_D⟩

/-- Settles O30: the halt is `enterDebug_halts`, the trap `raise_traps`, whose value a free value chooses (log 12). -/
theorem ebreakHaltsTrapsOrEndsTheBuffer : Obligations.EbreakHaltsTrapsOrEndsTheBuffer := by
  intro s
  refine ⟨?halts, ?traps, exec_ebreak_D⟩
  case halts =>
    intro hm hb
    exact ⟨_, exec_ebreak_halts hm hb, enterDebug_halts 1 s.pc s⟩
  case traps =>
    intro hm hb
    exact ⟨_, _, exec_ebreak_traps hm hb, ite_eq_or_eq _ _ _, raise_traps hm .breakpoint _⟩

/-- Settles O31: MRET is `trapReturn`, which sets `mstatus` by `mstatusWord` and keeps or loses the reservation. -/
theorem mretReturns : Obligations.MretReturns := by
  intro s hm
  have hstatus : (trapReturn s).mstatus.toNat = 0x1880 + (if s.mstatus.getLsbD 7 then 8 else 0) :=
    mstatusWord_toNat (s.mstatus.getLsbD 7) true
  exact ⟨_, exec_mret_M hm, rfl, hm, hstatus, keepReservation_cases _ _, getReg_congr rfl, fun _ => rfl, rfl⟩

/-- Settles O33: WFI only goes on and starts the wait; the wait goes on exactly where no interrupt is pending and
enabled and the free value does not end it. -/
theorem wfiMayWait : Obligations.WfiMayWait := by
  refine ⟨?starts, fun _ => exec_wfi_D, ?waits⟩
  case starts =>
    intro s hm
    rw [exec_wfi_M hm, advance_of_M hm]
    exact ⟨_, rfl, isSum_next s.pc, rfl, getReg_congr rfl, fun _ => rfl, rfl⟩
  case waits =>
    intro s hi hr hm hh hw
    constructor
    · intro hquiet
      have hasleep : s.wakes = false := Bool.eq_false_iff.mpr (mt wakes_iff.mp (not_not_intro hquiet))
      cases hfree : Config.wakeUp s.free with
      | false => exact .inl (step_waits hi hr hm hh (by simp [hw, hasleep, hfree]))
      | true => exact .inr (step_ends_wait hi hr hm hh (by simp [hfree]))
    · intro hpending
      have hwakes := wakes_iff.mpr hpending
      exact step_ends_wait hi hr hm hh (by simp [hwakes])

/-- Settles O34: DRET and the resume request are both `leaveDebug`. -/
theorem dretAndResumeLeaveDebugMode : Obligations.DretAndResumeLeaveDebugMode := fun _ =>
  ⟨exec_dret_D, fun hm => raisesOn_of_exec (e := .illegalInstruction) (exec_dret_M hm), fun hm hr hs hb =>
    (applyInput_resumereq (hartStatus_halted hm hr hs) hb).trans (leaveDebug_of_idle hb)⟩

/-- Settles O35: the three forms are `csrInstr` with the register's value as operand. -/
theorem csrRegisterForms : Obligations.CsrRegisterForms := by
  intro s rd rs1 n a
  exact ⟨csrInstr_accesses_writing (exec_csrrw rd rs1 n s),
    fun h => ⟨csrSets_of_exec (exec_csrrs rd rs1 n s) h, csrClears_of_exec (exec_csrrc rd rs1 n s) h⟩⟩

/-- Settles O36: the three forms are `csrInstr` with the zero-extended immediate as operand. -/
theorem csrImmediateForms : Obligations.CsrImmediateForms := by
  intro s rd uimm n
  rw [← zext5_eq_ofNat uimm]
  intro a
  exact ⟨csrInstr_accesses_writing (exec_csrrwi rd uimm n s),
    fun h => ⟨csrSets_of_exec (exec_csrrsi rd uimm n s) h, csrClears_of_exec (exec_csrrci rd uimm n s) h⟩⟩

end Machine
end Sys2Proof
end

section
/-! SUPPORT. The atomic instructions (45_atomics R321 to R323, R333): LR.W, SC.W and the AMOs on storage, every outcome
of LR.W and of SC.W, and what becomes of the reservation under every other instruction. -/

namespace Sys2Proof
namespace Machine

/-! ### Storage (20_memory R91, R95) -/

section Storage

variable {s : State} {a : Word} {c : Nat}

theorem memRead_storage (z : AccessSize) (h : ReachesStorage s a c) :
    memRead z a s = (s, some (Memory.load s.mem z c)) := by
  simp only [memRead, show dataAnswer s.cfg.dmap a.toNat = .memory c from h]

theorem memWrite_storage (z : AccessSize) (v : Word) (h : ReachesStorage s a c) :
    memWrite z a v s = (breakReservation a (writeStorage z c v s), true) := by
  simp only [memWrite, show dataAnswer s.cfg.dmap a.toNat = .memory c from h]

/-- How SC.W and the AMOs end after their store to storage, the reservation and the loop being `r` and `l`. -/
theorem writeRd_after_store (rd : RegNum) (v w : Word) (c : Nat) (s : State) (r : Option Word) (l : Option ScLoop) :
    ∃ t, writeRd rd v { writeStorage .word c w s with reservation := r, scLoop := l } = .next t ∧
      RegWritten rd v s t ∧ BytesStored c 4 w s t ∧ GoesOn s t ∧ StaleAfterStore c 4 s t ∧
      t = { s with
        x := t.x, mem := t.mem, stale := t.stale, reservation := r, scLoop := l, pc := t.pc, dm := t.dm } := by
  obtain ⟨t, ht, hreg, hnext, -, -⟩ :=
    writeRd_computes rd v { writeStorage .word c w s with reservation := r, scLoop := l }
  cases ht
  exact ⟨_, rfl, hreg, store_bytesStored (z := .word) rfl, hnext,
    store_staleAfterStore (z := .word) (v := w) rfl, rfl⟩

/-- An LR.W of storage (R321). -/
theorem exec_lrW_storage {rs1 : RegNum} (aq rl : Bool) (rd : RegNum) (ha : (s.getReg rs1).toNat % 4 = 0)
    (hc : ReachesStorage s (s.getReg rs1) c) :
    exec (.lrW aq rl rd rs1) s =
      writeRd rd (wordAt s.mem c) { s with reservation := some (s.getReg rs1), scLoop := s.loopAtLr } := by
  simp only [exec, execLrW, (aligned_iff (z := .word)).mpr ha, if_true, memRead_storage .word hc]
  rfl

/-- An AMO on storage (R323). -/
theorem amoOp_storage {rs1 : RegNum} (f : Word → Word → Word) (rd rs2 : RegNum) (ha : (s.getReg rs1).toNat % 4 = 0)
    (hc : ReachesStorage s (s.getReg rs1) c) :
    amoOp f rd rs1 rs2 s =
      writeRd rd (wordAt s.mem c)
        (breakReservation (s.getReg rs1) (writeStorage .word c (f (wordAt s.mem c) (s.getReg rs2)) s)) := by
  simp only [amoOp, (aligned_iff (z := .word)).mpr ha, if_true, memRead_storage .word hc, memWrite_storage .word _ hc]
  rfl

/-- An AMO on storage stores what its function gives, returns the old word and changes only what a store may. -/
theorem swapsWord_of_amo {i : Instr} {f : Word → Word → Word} {rd rs1 rs2 : RegNum} {P : Word → Prop}
    (hi : exec i s = amoOp f rd rs1 rs2 s) (ha : (s.getReg rs1).toNat % 4 = 0)
    (hc : ReachesStorage s (s.getReg rs1) c) (hP : P (f (wordAt s.mem c) (s.getReg rs2))) :
    SwapsWord i s (s.getReg rs1) c rd P := by
  have hres := breakReservation_covered (s.getReg rs1)
    (writeStorage .word c (f (wordAt s.mem c) (s.getReg rs2)) s)
  obtain ⟨t, ht, hreg, hbytes, hnext, hstale, hframe⟩ :=
    writeRd_after_store rd (wordAt s.mem c) (f (wordAt s.mem c) (s.getReg rs2)) c s
      (breakReservation (s.getReg rs1) (writeStorage .word c (f (wordAt s.mem c) (s.getReg rs2)) s)).reservation
      s.scLoop
  have hkept : t.reservation = _ := congrArg State.reservation hframe
  rw [← hkept] at hres hframe
  exact ⟨_, t, (hi.trans (amoOp_storage f rd rs2 ha hc)).trans ht, hP, hbytes, hreg, hnext, hres, hstale, hframe⟩

end Storage

/-! ### SC.W (R322) -/

section StoreConditional

variable {s : State} {aq rl : Bool} {rd rs1 rs2 : RegNum}

/-- An SC.W that fails. -/
theorem exec_scW_fails (ha : (s.getReg rs1).toNat % 4 = 0) (h : ¬ ScStores s (s.getReg rs1)) :
    exec (.scW aq rl rd rs1 rs2) s =
      writeRd rd 1 { s with reservation := none, scLoop := s.loopAfterFailure (s.getReg rs1) } := by
  have hfails : (s.reserves (s.getReg rs1) && !s.spurious (s.getReg rs1)) = false := by
    simpa [ScStores] using h
  simp only [exec, execScW, (aligned_iff (z := .word)).mpr ha, if_true, hfails, Bool.false_eq_true, if_false]

/-- An SC.W that stores to storage. -/
theorem exec_scW_storage {c : Nat} (ha : (s.getReg rs1).toNat % 4 = 0) (h : ScStores s (s.getReg rs1))
    (hc : ReachesStorage s (s.getReg rs1) c) :
    exec (.scW aq rl rd rs1 rs2) s =
      writeRd rd 0 { writeStorage .word c (s.getReg rs2) s with reservation := none, scLoop := none } := by
  obtain ⟨hres, hspurious⟩ := h
  simp only [exec, execScW, (aligned_iff (z := .word)).mpr ha, hres, hspurious, Bool.not_false, Bool.and_self, if_true,
    memWrite_storage .word _ hc]
  rfl

/-- An SC.W that would store where nothing answers. -/
theorem scW_unmapped (ha : (s.getReg rs1).toNat % 4 = 0) (h : ScStores s (s.getReg rs1))
    (hu : Unmapped s (s.getReg rs1)) : RaisesOn (.scW aq rl rd rs1 rs2) s 7 (s.getReg rs1) := by
  obtain ⟨hres, hspurious⟩ := h
  refine raisesOn_of_exec (e := .storeAccessFault) ?_
  simp only [exec, execScW, (aligned_iff (z := .word)).mpr ha, hres, hspurious, Bool.not_false, Bool.and_self, if_true,
    memWrite_unmapped hu]

end StoreConditional

/-! ### What is kept or lost, and never gained (R333, R335) -/

/-- What was there before is still there, or nothing is. -/
def KeptOrLost {α : Type} (before after : Option α) : Prop := after = before ∨ after = none

theorem KeptOrLost.trans {α : Type} {a b c : Option α} (h : KeptOrLost a b) (h' : KeptOrLost b c) :
    KeptOrLost a c := by
  rcases h' with rfl | rfl
  · exact h
  · exact .inr rfl

theorem raise_reservation (e : Exc) (v : Word) (s : State) :
    KeptOrLost s.reservation (raise e v s).reservation := by
  unfold raise
  split
  · exact keepReservation_cases _ _
  · exact .inl rfl

/-- A trap leaves the loop. -/
theorem raise_scLoop_M {s : State} (hm : s.mode = .M) (e : Exc) (v : Word) : (raise e v s).scLoop = none := by
  rw [raise, if_pos hm]
  rfl

theorem raise_scLoop (e : Exc) (v : Word) (s : State) : KeptOrLost s.scLoop (raise e v s).scLoop := by
  unfold raise
  split
  · exact .inr rfl
  · exact .inl rfl

theorem memRead_reservation (z : AccessSize) (a : Word) (s : State) :
    (memRead z a s).1.reservation = s.reservation := by rw [memRead_frame]

theorem memWrite_reservation (z : AccessSize) (a v : Word) (s : State) :
    KeptOrLost s.reservation (memWrite z a v s).1.reservation := by
  rcases memWrite_cases z a v s with
    ⟨c, -, e⟩ | ⟨r, -, -, e⟩ | ⟨t, -, -, -, e⟩ | ⟨-, -, -, e⟩ | ⟨i, -, e⟩ | ⟨-, e⟩ <;> rw [e]
  · exact breakReservation_cases _ _
  · exact breakReservation_cases _ _
  · exact breakReservation_cases _ _
  · exact .inl rfl
  · exact breakReservation_cases _ _
  · exact .inl rfl

theorem memRead_scLoop (z : AccessSize) (a : Word) (s : State) : (memRead z a s).1.scLoop = s.scLoop := by
  rw [memRead_frame]

theorem memWrite_scLoop (z : AccessSize) (a v : Word) (s : State) : (memWrite z a v s).1.scLoop = s.scLoop := by
  rw [memWrite_frame]

theorem memWrite_mode (z : AccessSize) (a v : Word) (s : State) : (memWrite z a v s).1.mode = s.mode := by
  rw [memWrite_frame]

/-! ### Every outcome of LR.W and SC.W -/

/-- LR.W takes the reservation and begins an attempt, or raises an exception. -/
theorem execLrW_cases {aq rl : Bool} {rd rs1 : RegNum} {s t : State} (h : execLrW aq rl rd rs1 s = .next t) :
    (t.reservation = some (s.getReg rs1) ∧ t.scLoop = s.loopAtLr) ∨
      (KeptOrLost s.reservation t.reservation ∧ (s.mode = .M → t.scLoop = none)) := by
  simp only [execLrW] at h
  split at h
  · have hres := memRead_reservation .word (s.getReg rs1) s
    have hmode := memRead_mode .word (s.getReg rs1) s
    split at h <;> rename_i e <;> rw [e] at hres hmode <;> cases h
    · exact .inl ⟨rfl, rfl⟩
    · exact .inr ⟨hres ▸ raise_reservation _ _ _, fun hm => raise_scLoop_M (hmode.trans hm) _ _⟩
  · cases h
    exact .inr ⟨raise_reservation _ _ _, fun hm => raise_scLoop_M hm _ _⟩

/-- SC.W takes no reservation, and leaves no loop but the one its failure counts. -/
theorem execScW_cases {aq rl : Bool} {rd rs1 rs2 : RegNum} {s t : State} (h : execScW aq rl rd rs1 rs2 s = .next t) :
    KeptOrLost s.reservation t.reservation ∧
      (s.mode = .M → t.scLoop = none ∨ t.scLoop = s.loopAfterFailure (s.getReg rs1)) := by
  simp only [execScW] at h
  split at h
  · split at h
    · have hres := memWrite_reservation .word (s.getReg rs1) (s.getReg rs2) s
      have hmode := memWrite_mode .word (s.getReg rs1) (s.getReg rs2) s
      split at h <;> rename_i e <;> rw [e] at hres hmode <;> cases h
      · exact ⟨.inr rfl, fun _ => .inl rfl⟩
      · exact ⟨hres.trans (raise_reservation _ _ _), fun hm => .inl (raise_scLoop_M (hmode.trans hm) _ _)⟩
    · cases h
      exact ⟨.inr rfl, fun _ => .inr rfl⟩
  · cases h
    exact ⟨raise_reservation _ _ _, fun hm => .inl (raise_scLoop_M hm _ _)⟩

/-! ### Every other instruction -/

/-- What an instruction other than LR.W and SC.W is made of keeps or loses the reservation (R333). -/
theorem reservation_primitives {i : Instr} (hi : isLrSc i = false) :
    Primitives i (fun s t => KeptOrLost s.reservation t.reservation) where
  refl _ := .inl rfl
  trans := KeptOrLost.trans
  setReg _ _ _ := .inl rfl
  advance _ := .inl rfl
  raise s e v := raise_reservation e v s
  read s z a := .inl (memRead_reservation z a s)
  write s z a v := memWrite_reservation z a v s
  csr _ _ _ _ := .inl rfl
  reserve h := by simp [hi] at h
  jump _ _ _ _ _ := .inl rfl
  transfer _ _ := .inl rfl
  ret _ _ _ := keepReservation_cases _ _
  halt _ _ _ _ := .inr rfl
  endBuffer _ _ _ := .inl rfl
  wait _ _ _ := .inl rfl
  refetch _ := .inl rfl
  leave _ _ _ := .inl rfl

end Machine
end Sys2Proof
end

section
/-! The atomic instructions on storage, and what sets the reservation (45_atomics R320 to R333). -/

namespace Sys2Proof
namespace Machine

/-- Settles O40: an LR.W of storage is `writeRd` of the word read, the reservation taken. -/
theorem loadReservedReserves : Obligations.LoadReservedReserves := by
  intro s rd rs1 aq rl c a ha hc
  obtain ⟨t, ht, hcomputes⟩ := writeRd_computes rd (wordAt s.mem c)
    { s with reservation := some a, scLoop := s.loopAtLr }
  exact ⟨_, t, (exec_lrW_storage aq rl rd ha hc).trans ht, rfl, hcomputes⟩

/-- Settles O42: each AMO is the common rule over the function its row names. -/
theorem atomicMemoryOperationResults : Obligations.AtomicMemoryOperationResults := by
  intro s rd rs1 rs2 aq rl c a b ha hc p hp
  obtain ⟨f, hf, hP⟩ := amoForms_exec aq rl rd rs1 rs2 p hp
  exact swapsWord_of_amo (hf s) ha hc (hP _ _)

/-- Settles O43: LR.W and SC.W by their outcomes, every other instruction by what it is made of. -/
theorem onlyLoadReservedReserves : Obligations.OnlyLoadReservedReserves := by
  refine ⟨fun i s t h => ?_, fun _ _ _ => rfl⟩
  have kept (hk : KeptOrLost s.reservation t.reservation) :
      t.reservation = s.reservation ∨ t.reservation = none ∨
        ∃ aq rl rd rs1, i = .lrW aq rl rd rs1 ∧ t.reservation = some (s.getReg rs1) :=
    hk.imp_right .inl
  cases i with
  | lrW aq rl rd rs1 =>
    rcases execLrW_cases (aq := aq) (rl := rl) h with ⟨hres, -⟩ | ⟨hk, -⟩
    · exact .inr (.inr ⟨aq, rl, rd, rs1, rfl, hres⟩)
    · exact kept hk
  | scW aq rl rd rs1 rs2 => exact kept (execScW_cases (aq := aq) (rl := rl) h).1
  | _ => exact kept ((reservation_primitives rfl).exec h)

end Machine
end Sys2Proof
end

section
/-! SUPPORT. Constrained LR/SC loops (45_atomics R335; log 15): what a cycle of M-mode can be, and that no cycle raises
the number of failures still to come or loses it while the loop goes on. -/

namespace Sys2Proof
namespace Machine

/-! ### What a cycle of M-mode can be -/

/-- Every outcome of fetch, decoding and execution. -/
theorem fetchDecodeExec_cases {s t : State} (h : fetchDecodeExec s = .next t) :
    (∃ e v, t = raise e v s) ∨
      ∃ w i u, fetch s s.pc = some w ∧ decode w = .ok i ∧ exec i s = .next u ∧ t = trackLoop i s u := by
  unfold fetchDecodeExec at h
  split at h
  · cases h
    exact .inl ⟨_, _, rfl⟩
  split at h
  · cases h
    exact .inl ⟨_, _, rfl⟩
  rename_i w hw
  split at h
  · rename_i i r e
    obtain ⟨u, hu, rfl⟩ := mapNext_next h
    exact .inr ⟨w, i, u, hw, decode_of_bytes e, hu, rfl⟩
  · cases h
    exact .inl ⟨_, _, rfl⟩

/-- Every outcome of a cycle of M-mode. -/
theorem cycle_M_cases {s t : State} (hm : s.mode = .M) (h : cycle s = .next t) :
    t = s ∨ (∃ c p, t = enterDebug c p s) ∨
      (∃ code, t = afterStep (takeInterrupt code { s with waiting := false })) ∨
      ∃ u, fetchDecodeExec { s with waiting := false } = .next u ∧ t = afterStep u := by
  by_cases hr : s.inReset = true
  · rw [cycle, if_pos hr] at h
    cases h
    exact .inl rfl
  rw [cycle_M (Bool.eq_false_iff.mpr hr) hm] at h
  by_cases hh : s.dm.haltreq = true
  · rw [cycleM_halts hh] at h
    cases h
    exact .inr (.inl ⟨_, _, rfl⟩)
  by_cases hw : (s.waiting && !s.wakes && !Config.wakeUp s.free) = true
  · rw [cycleM_waits (Bool.eq_false_iff.mpr hh) hw] at h
    cases h
    exact .inl rfl
  rw [cycleM_starts (Bool.eq_false_iff.mpr hh) (Bool.eq_false_iff.mpr hw)] at h
  split at h
  · cases h
    exact .inr (.inr (.inl ⟨_, rfl⟩))
  · exact .inr (.inr (.inr (mapNext_next h)))

/-! ### What becomes of the loop -/

/-- The end of a single step leaves the loop. -/
theorem afterStep_scLoop (s : State) : KeptOrLost s.scLoop (afterStep s).scLoop := by
  rcases afterStep_cases s with ⟨-, -, e⟩ | ⟨-, e⟩ <;> rw [e]
  · exact .inr rfl
  · exact .inl rfl

/-- What an instruction other than LR.W, SC.W, MRET and DRET is made of keeps or loses the loop. -/
theorem scLoop_primitives {i : Instr} (hi : isLrSc i = false) (hmret : i ≠ .mret) (hdret : i ≠ .dret) :
    Primitives i (fun s t => KeptOrLost s.scLoop t.scLoop) where
  refl _ := .inl rfl
  trans := KeptOrLost.trans
  setReg _ _ _ := .inl rfl
  advance _ := .inl rfl
  raise s e v := raise_scLoop e v s
  read s z a := .inl (memRead_scLoop z a s)
  write s z a v := .inl (memWrite_scLoop z a v s)
  csr _ _ _ _ := .inl rfl
  reserve h := by simp [hi] at h
  jump _ _ _ _ _ := .inl rfl
  transfer _ _ := .inl rfl
  ret h := absurd h hmret
  halt _ _ _ _ := .inr rfl
  endBuffer _ _ _ := .inl rfl
  wait _ _ _ := .inl rfl
  refetch _ := .inl rfl
  leave h := absurd h hdret

/-- The LR.W a retry leads back to goes on with the loop (R335). -/
theorem loopAtLr_of_retrying {s : State} {l : ScLoop} (hm : s.mode = .M) (hl : s.scLoop = some l)
    (hp : l.phase = .retrying) : s.loopAtLr = some { l with phase := .trying } := by
  obtain ⟨start, phase, left⟩ := l
  cases hp
  simp only [State.loopAtLr, hm, hl]

/-- An SC.W that is no attempt of a constrained loop leaves no loop. -/
theorem loopAfterFailure_eq_none {s : State} {a : Word} (h : s.constrained a = none) : s.loopAfterFailure a = none := by
  rw [State.loopAfterFailure, h, Option.map_none]

/-- A failed attempt of a constrained loop counts one failure (R335). -/
theorem loopAfterFailure_of_constrained {s : State} {a : Word} {l : ScLoop} {n : Nat}
    (h : s.constrained a = some (l, n)) :
    s.loopAfterFailure a = some { l with phase := .failed, left := some (n - 1) } := by
  rw [State.loopAfterFailure, h, Option.map_some]

/-- A loop that is followed keeps its count. -/
theorem follow_left {l k : ScLoop} {i : Instr} {pc next : Word} (h : l.follow i pc next = some k) :
    k.left = l.left := by
  unfold ScLoop.follow at h
  split at h <;> split at h <;> cases h <;> rfl

/-- A backward branch that keeps the whole within 16 words takes a failed attempt back to its LR.W (R335). -/
theorem follow_failed {l : ScLoop} {i : Instr} {pc next : Word} (hi : isBranch i = true) (hp : l.phase = .failed)
    (hshort : (pc - next).toNat < 64) (hstart : (l.start - next).toNat ≤ (pc - next).toNat) :
    l.follow i pc next = some { l with start := next, phase := .retrying } := by
  simp only [ScLoop.follow, hp]
  exact if_pos ⟨hi, hshort, hstart⟩

/-- A loop between its LR.W and its SC.W is not kept across a trap or a halt. -/
theorem parkLoop_of_trying {s : State} {l : ScLoop} (hl : s.scLoop = some l) (hp : l.phase = .trying) (p : Word) :
    s.parkLoop p = s.scParked := by
  simp only [State.parkLoop, hl, hp, if_true]

/-! ### The failures still to come -/

/-- A loop, if there is one, has a number of failures still to come, at most `n`. -/
def CountsDownFrom (n : Nat) (l : Option ScLoop) : Prop := ∀ k, l = some k → ∃ m ≤ n, k.left = some m

theorem countsDownFrom_none (n : Nat) : CountsDownFrom n none := nofun

theorem countsDownFrom_of_left {n m : Nat} {l : ScLoop} (h : l.left = some m) (hm : m ≤ n) :
    CountsDownFrom n (some l) := by
  rintro k ⟨⟩
  exact ⟨m, hm, h⟩

theorem CountsDownFrom.of_keptOrLost {n : Nat} {l k : Option ScLoop} (h : CountsDownFrom n l) (hk : KeptOrLost l k) :
    CountsDownFrom n k := by
  rcases hk with rfl | rfl
  · exact h
  · exact countsDownFrom_none n

/-- The count of a loop outlives its being followed. -/
theorem CountsDownFrom.trackLoop {n : Nat} {t : State} (h : CountsDownFrom n t.scLoop) (i : Instr) (s : State) :
    CountsDownFrom n (trackLoop i s t).scLoop := by
  unfold Machine.trackLoop
  simp only
  split
  · exact h
  · intro k hk
    obtain ⟨l, hl, hfollow⟩ := Option.bind_eq_some_iff.mp hk
    rw [follow_left hfollow]
    exact h l hl

section Counting

variable {s : State} {l : ScLoop} {n : Nat}

/-- A failed SC.W raises no count: in a constrained loop it lowers it, elsewhere the loop is over. -/
theorem loopAfterFailure_countsDown (hl : s.scLoop = some l) (hn : l.left = some n) (a : Word) :
    CountsDownFrom n (s.loopAfterFailure a) := by
  cases hc : s.constrained a with
  | none =>
    rw [loopAfterFailure_eq_none hc]
    exact countsDownFrom_none n
  | some p =>
    obtain ⟨k, m⟩ := p
    obtain ⟨hk, -, -, hm⟩ := constrained_eq_some.mp hc
    obtain rfl : l = k := Option.some.inj (hl.symm.trans hk)
    obtain rfl : n = m := by simpa [hn] using hm
    rw [loopAfterFailure_of_constrained hc]
    exact countsDownFrom_of_left rfl (Nat.sub_le n 1)

/-- No instruction of M-mode raises the count or loses it while the loop goes on, but an LR.W that is no retry and
MRET. -/
theorem exec_countsDown {i : Instr} {t : State} (hm : s.mode = .M) (hl : s.scLoop = some l) (hn : l.left = some n)
    (hfresh : ∀ aq rl rd rs1, i = .lrW aq rl rd rs1 → l.phase = .retrying) (hmret : i ≠ .mret)
    (h : exec i s = .next t) : CountsDownFrom n t.scLoop := by
  have hcount : CountsDownFrom n s.scLoop := hl ▸ countsDownFrom_of_left hn (Nat.le_refl n)
  cases i with
  | lrW aq rl rd rs1 =>
    rcases execLrW_cases (aq := aq) (rl := rl) h with ⟨-, hloop⟩ | ⟨-, hloop⟩
    · rw [hloop, loopAtLr_of_retrying hm hl (hfresh _ _ _ _ rfl)]
      exact countsDownFrom_of_left hn (Nat.le_refl n)
    · rw [hloop hm]
      exact countsDownFrom_none n
  | scW aq rl rd rs1 rs2 =>
    rcases (execScW_cases (aq := aq) (rl := rl) h).2 hm with hloop | hloop <;> rw [hloop]
    · exact countsDownFrom_none n
    · exact loopAfterFailure_countsDown hl hn _
  | mret => exact absurd rfl hmret
  | dret =>
    rw [exec_dret_M hm] at h
    cases h
    exact hcount.of_keptOrLost (raise_scLoop _ _ s)
  | _ => exact hcount.of_keptOrLost ((scLoop_primitives rfl hmret nofun).exec h)

/-- The same of the whole of fetch, decoding and execution. -/
theorem fetchDecodeExec_countsDown {t : State} (hm : s.mode = .M) (hl : s.scLoop = some l) (hn : l.left = some n)
    (hfresh : ∀ w aq rl rd rs1, fetch s s.pc = some w → decode w = .ok (.lrW aq rl rd rs1) → l.phase = .retrying)
    (hmret : fetch s s.pc ≠ some 0x30200073#32) (h : fetchDecodeExec s = .next t) : CountsDownFrom n t.scLoop := by
  rcases fetchDecodeExec_cases h with ⟨e, v, rfl⟩ | ⟨w, i, u, hw, hd, hu, rfl⟩
  · rw [raise_scLoop_M hm]
    exact countsDownFrom_none n
  · refine (exec_countsDown hm hl hn ?_ ?_ hu).trackLoop i s
    · rintro aq rl rd rs1 rfl
      exact hfresh w aq rl rd rs1 hw hd
    · rintro rfl
      obtain rfl : 0x30200073#32 = w := decode_reencodes w _ hd
      exact hmret hw

/-- The same of a cycle of M-mode. -/
theorem cycle_countsDown {t : State} (hm : s.mode = .M) (hl : s.scLoop = some l) (hn : l.left = some n)
    (hfresh : ∀ w aq rl rd rs1, fetch s s.pc = some w → decode w = .ok (.lrW aq rl rd rs1) → l.phase = .retrying)
    (hmret : fetch s s.pc ≠ some 0x30200073#32) (h : cycle s = .next t) : CountsDownFrom n t.scLoop := by
  rcases cycle_M_cases hm h with rfl | ⟨c, p, rfl⟩ | ⟨code, rfl⟩ | ⟨u, hu, rfl⟩
  · exact hl ▸ countsDownFrom_of_left hn (Nat.le_refl n)
  · exact countsDownFrom_none n
  · exact (countsDownFrom_none n).of_keptOrLost (afterStep_scLoop _)
  · have hcount := fetchDecodeExec_countsDown (s := { s with waiting := false }) hm hl hn hfresh hmret hu
    exact hcount.of_keptOrLost (afterStep_scLoop u)

end Counting

end Machine
end Sys2Proof
end

section
/-! SC.W (45_atomics R322, R335). -/

namespace Sys2Proof
namespace Machine

/-! ### Which SC.W stores -/

section Attempts

variable {s : State} {a : Word}

/-- The free number of failures of an attempt, known or drawn now, is the one `State.constrained` finds (log 15). -/
theorem constrained_iff {l : ScLoop} {n : Nat} :
    s.constrained a = some (l, n) ↔
      s.scLoop = some l ∧ l.phase = .trying ∧ s.reservation = some a ∧
        (l.left = some n ∨ (l.left = none ∧ n = Config.spuriousRun s.free)) := by
  rw [constrained_eq_some]
  cases l.left <;> simp [eq_comm]

theorem constrained_eq_none (h : ∀ l n, s.constrained a ≠ some (l, n)) : s.constrained a = none :=
  Option.eq_none_iff_forall_ne_some.mpr fun p => h p.1 p.2

/-- An address is in the reserved block of its own LR.W. -/
theorem reserves_of_constrained {l : ScLoop} {n : Nat} (h : s.constrained a = some (l, n)) : s.reserves a = true := by
  obtain ⟨-, -, hres, -⟩ := constrained_eq_some.mp h
  simp [State.reserves, hres, sameBlock]

theorem constrained_of_not_reserves (h : s.reserves a = false) : s.constrained a = none :=
  constrained_eq_none fun _ _ hc => by simp [reserves_of_constrained hc] at h

/-- In a constrained loop SC.W stores exactly when no failure is still to come (R335). -/
theorem scStores_of_constrained {l : ScLoop} {n : Nat} (h : s.constrained a = some (l, n)) : ScStores s a ↔ n = 0 := by
  simp [ScStores, reserves_of_constrained h, State.spurious, h]

/-- Elsewhere it stores exactly when the reservation covers the address and the free value lets it (R322). -/
theorem scStores_of_unconstrained (h : s.constrained a = none) :
    ScStores s a ↔ s.reserves a = true ∧ Config.spuriousFail s.free = false := by
  rw [ScStores, State.spurious, h]

end Attempts

section Outcomes

variable {s : State} {aq rl : Bool} {rd rs1 rs2 : RegNum}

/-- An SC.W that fails writes 1, drops the reservation and leaves what the failure leaves of the loop. -/
theorem scW_fails {l : Option ScLoop} (ha : (s.getReg rs1).toNat % 4 = 0) (h : ¬ ScStores s (s.getReg rs1))
    (hl : s.loopAfterFailure (s.getReg rs1) = l) :
    ∃ t, exec (.scW aq rl rd rs1 rs2) s = .next t ∧ Computes rd 1 { s with reservation := none, scLoop := l } t := by
  rw [exec_scW_fails ha h, hl]
  exact writeRd_computes rd 1 _

/-- An SC.W that stores writes the word and 0 and drops the reservation and the loop. -/
theorem scW_storage {c : Nat} (ha : (s.getReg rs1).toNat % 4 = 0) (h : ScStores s (s.getReg rs1))
    (hc : ReachesStorage s (s.getReg rs1) c) :
    ∃ t, exec (.scW aq rl rd rs1 rs2) s = .next t ∧ RegWritten rd 0 s t ∧ BytesStored c 4 (s.getReg rs2) s t ∧
      GoesOn s t ∧ StaleAfterStore c 4 s t ∧
      t = { s with
        x := t.x, mem := t.mem, stale := t.stale, reservation := none, scLoop := none, pc := t.pc, dm := t.dm } := by
  rw [exec_scW_storage ha h hc]
  exact writeRd_after_store rd 0 (s.getReg rs2) c s none none

end Outcomes

/-- Settles O41: SC.W stores exactly where `ScStores` holds, which is decided by the failures still to come in a
constrained loop and by the free value elsewhere; the count is kept by `cycle_countsDown`. -/
theorem storeConditionalStoresOrFails : Obligations.StoreConditionalStoresOrFails := by
  refine ⟨?outcomes, ?counted, fun _ _ => loopAtLr_of_retrying, fun _ _ _ _ _ => follow_left, ?retries, ?parked⟩
  case outcomes =>
    intro s rd rs1 rs2 aq rl a i fails stores attempt ha
    have stored (h : ScStores s a) : stores := ⟨fun c => scW_storage ha h, scW_unmapped ha h⟩
    refine ⟨?uncovered, fun hres hnone => ?unconstrained, fun l hl => ?succeeds, fun l n hl => ?counts⟩
    case uncovered =>
      intro hres
      exact scW_fails ha (fun h => Bool.false_ne_true (hres.symm.trans h.1))
        (loopAfterFailure_eq_none (constrained_of_not_reserves hres))
    case unconstrained =>
      have hc : s.constrained a = none := constrained_eq_none fun l n h => hnone l n (constrained_iff.mp h)
      have hiff := scStores_of_unconstrained hc
      exact ⟨fun hfree => stored (hiff.mpr ⟨hres, hfree⟩),
        fun hfree => scW_fails ha (fun h => Bool.false_ne_true ((hiff.mp h).2.symm.trans hfree))
          (loopAfterFailure_eq_none hc)⟩
    case succeeds => exact stored ((scStores_of_constrained (constrained_iff.mpr hl)).mpr rfl)
    case counts =>
      have hc : s.constrained a = some (l, n + 1) := constrained_iff.mpr hl
      exact scW_fails ha (mt (scStores_of_constrained hc).mp (Nat.succ_ne_zero n)) (loopAfterFailure_of_constrained hc)
  case counted =>
    intro s t l k n hm h hl hn hk hfresh hmret
    obtain ⟨u, hu, rfl⟩ := step_next h
    exact cycle_countsDown hm hl hn hfresh hmret hu k hk
  case retries =>
    intro l pc next rs1 rs2 off hp hshort hstart i hi
    have hbranch : isBranch i = true := by fin_cases hi <;> rfl
    exact follow_failed hbranch hp hshort hstart
  case parked =>
    intro s p l hl
    exact ⟨fun hp => parkLoop_of_trying hl hp p, fun hp _ ht => parked_returns hl hp ht⟩

end Machine
end Sys2Proof
end

section
/-! SUPPORT. Boundaries at which an interrupt is taken or a halt requested, and what a cycle that begins in M-mode does
to the mode and to a single step (60 R422, R471 to R474). -/

namespace Sys2Proof
namespace Machine

/-! ### The timer's advance (60 R452) -/

/-- The model's amount is at least 1 except where `dcsr`.stoptime stops the timer in D-mode (log 8). -/
theorem tickAmount_pos {s : State} (h : s.mode = .M ∨ s.dcsr.getLsbD 9 = false) : 1 ≤ tickAmount s := by
  have hruns : (s.mode == .D && s.dcsrStoptime) = false := by
    rcases h with hm | hstop
    · rw [hm]
      rfl
    · rw [State.dcsrStoptime, hstop, Bool.and_false]
  rw [tickAmount, hruns]
  exact Nat.le_add_left 1 _

/-! ### Interrupts (60 R422, R428, R473) -/

/-- `NoInterrupt` fails exactly where an interrupt is enabled, pending and not held off by a single step. -/
theorem not_noInterrupt_iff {s : State} :
    ¬ NoInterrupt s ↔
      s.mstatus.getLsbD 3 = true ∧ s.mip &&& s.mie ≠ 0 ∧ (s.stepping = true → s.dcsr.getLsbD 11 = true) := by
  simp only [NoInterrupt, not_or, not_and, Bool.not_eq_false, ne_eq]

/-- Where `NoInterrupt` fails, one of the pending and enabled interrupts is taken. -/
theorem interruptTaken_eq_some {s : State} (h : ¬ NoInterrupt s) :
    ∃ code, s.interruptTaken = some code ∧ (s.mip &&& s.mie).getLsbD code = true ∧ code ∈ interruptCodes := by
  obtain ⟨hmie, hpending, hstep⟩ := not_noInterrupt_iff.mp h
  have henabled : (s.mstatusMIE && (!s.stepping || s.dcsrStepie)) = true := by
    rw [State.mstatusMIE, hmie, State.dcsrStepie]
    cases hs : s.stepping with
    | false => rfl
    | true => rw [hstep hs]; rfl
  rcases chosenInterrupt_cases s with ⟨hnone, -⟩ | ⟨-, code, hcode, hbit, hmem⟩
  · exact absurd hnone hpending
  · exact ⟨code, (if_pos henabled).trans hcode, hbit, hmem⟩

/-- Interrupt trap entry at the boundary (60 R423, R430). -/
theorem takeInterrupt_traps {code : Nat} (h : code ∈ interruptCodes) (s : State) :
    Traps true code 0 s.pc s (takeInterrupt code s) := by
  have hsmall : ∀ c ∈ interruptCodes, (BitVec.ofNat 31 c).toNat = c := by decide
  have htraps := trapEntry_traps true (BitVec.ofNat 31 code) 0 s.pc s
  rwa [hsmall code h] at htraps

/-! ### The end of a single step (60 R473) -/

theorem afterStep_of_stepping {s : State} (hs : s.stepping = true) (hm : s.mode = .M) :
    afterStep s = enterDebug 4 s.pc s := if_pos (by rw [hs, hm]; rfl)

theorem afterStep_of_not_stepping {s : State} (hs : s.stepping = false) : afterStep s = s :=
  if_neg (by rw [hs]; exact Bool.false_ne_true)

/-- The end of a single step leads into D-mode only a hart that owes the step, and with cause 4. -/
theorem afterStep_entersDebug {s : State} (hm : s.mode = .M) (h : (afterStep s).mode = .D) :
    s.stepping = true ∧ (afterStep s).dcsr.extractLsb' 6 3 = 4#3 := by
  rcases afterStep_cases s with ⟨hs, -, e⟩ | ⟨-, e⟩ <;> rw [e] at h ⊢
  · exact ⟨hs, dcsrWithCause_cause _ _⟩
  · exact absurd hm (mode_ne_M h)

/-! ### What an instruction in M-mode does to the mode and to the single step -/

/-- `t` is in the mode of `s` and owes a step if `s` does. -/
def SameModeAndStep (s t : State) : Prop := t.mode = s.mode ∧ t.stepping = s.stepping

theorem raise_sameModeAndStep (e : Exc) (v : Word) (s : State) : SameModeAndStep s (raise e v s) := by
  unfold raise
  split <;> exact ⟨rfl, rfl⟩

theorem memRead_sameModeAndStep (z : AccessSize) (a : Word) (s : State) : SameModeAndStep s (memRead z a s).1 := by
  rw [memRead_frame]
  exact ⟨rfl, rfl⟩

theorem memWrite_sameModeAndStep (z : AccessSize) (a v : Word) (s : State) :
    SameModeAndStep s (memWrite z a v s).1 := by
  rw [memWrite_frame]
  exact ⟨rfl, rfl⟩

/-- Only EBREAK and DRET change the mode or the single step. -/
theorem sameModeAndStep_primitives {i : Instr} (hebreak : i ≠ .ebreak) (hdret : i ≠ .dret) :
    Primitives i SameModeAndStep where
  refl _ := ⟨rfl, rfl⟩
  trans := fun ⟨hm, hs⟩ ⟨hm', hs'⟩ => ⟨hm'.trans hm, hs'.trans hs⟩
  setReg _ _ _ := ⟨rfl, rfl⟩
  advance _ := ⟨rfl, rfl⟩
  raise s e v := raise_sameModeAndStep e v s
  read s z a := memRead_sameModeAndStep z a s
  write s z a v := memWrite_sameModeAndStep z a v s
  csr _ _ _ _ := ⟨rfl, rfl⟩
  reserve _ _ _ _ _ := ⟨rfl, rfl⟩
  jump _ _ _ _ _ := ⟨rfl, rfl⟩
  transfer _ _ := ⟨rfl, rfl⟩
  ret _ _ _ := ⟨rfl, rfl⟩
  halt h := absurd h hebreak
  endBuffer h := absurd h hebreak
  wait _ _ _ := ⟨rfl, rfl⟩
  refetch _ := ⟨rfl, rfl⟩
  leave h := absurd h hdret

/-- In M-mode an instruction keeps the mode and the single step, but an EBREAK with `dcsr`.ebreakm set. -/
theorem exec_M_cases {i : Instr} {s t : State} (hm : s.mode = .M) (h : exec i s = .next t) :
    SameModeAndStep s t ∨ (i = .ebreak ∧ s.dcsr.getLsbD 15 = true ∧ t = enterDebug 1 s.pc s) := by
  by_cases hebreak : i = .ebreak
  · subst hebreak
    cases hb : s.dcsr.getLsbD 15 with
    | true =>
      rw [exec_ebreak_halts hm hb] at h
      cases h
      exact .inr ⟨rfl, rfl, rfl⟩
    | false =>
      rw [exec_ebreak_traps hm hb] at h
      cases h
      exact .inl (raise_sameModeAndStep _ _ s)
  by_cases hdret : i = .dret
  · subst hdret
    rw [exec_dret_M hm] at h
    cases h
    exact .inl (raise_sameModeAndStep _ _ s)
  exact .inl ((sameModeAndStep_primitives hebreak hdret).exec h)

/-- The same of the whole of fetch, decoding and execution; the word of EBREAK is 0x00100073. -/
theorem fetchDecodeExec_M_cases {s t : State} (hm : s.mode = .M) (h : fetchDecodeExec s = .next t) :
    SameModeAndStep s t ∨
      (s.dcsr.getLsbD 15 = true ∧ fetch s s.pc = some 0x00100073#32 ∧
        t = trackLoop .ebreak s (enterDebug 1 s.pc s)) := by
  rcases fetchDecodeExec_cases h with ⟨e, v, rfl⟩ | ⟨w, i, u, hw, hd, hu, rfl⟩
  · exact .inl (raise_sameModeAndStep e v s)
  rcases exec_M_cases hm hu with hsame | ⟨rfl, hb, rfl⟩
  · exact .inl hsame
  · obtain rfl : 0x00100073#32 = w := decode_reencodes w _ hd
    exact .inr ⟨hb, hw, rfl⟩

/-! ### Cycles of M-mode -/

/-- The cycle that takes an interrupt: the trap, and then the end of a single step. -/
theorem cycle_interrupts {s : State} (hr : Running s) (h : ¬ NoInterrupt s) :
    ∃ code t, (s.mip &&& s.mie).getLsbD code = true ∧ Traps true code 0 s.pc { s with waiting := false } t ∧
      SameModeAndStep s t ∧ cycle s = .next (afterStep t) := by
  obtain ⟨code, htaken, hbit, hmem⟩ := interruptTaken_eq_some (s := { s with waiting := false }) h
  refine ⟨code, takeInterrupt code { s with waiting := false }, hbit, takeInterrupt_traps hmem _, ⟨rfl, rfl⟩, ?_⟩
  rw [cycle_running hr, htaken]

/-- Every outcome of a cycle of M-mode without a halt request. -/
theorem cycle_M_unhalted_cases {s t : State} (hm : s.mode = .M) (hh : s.dm.haltreq = false)
    (h : cycle s = .next t) :
    t = s ∨ (∃ code, t = afterStep (takeInterrupt code { s with waiting := false })) ∨
      ∃ u, fetchDecodeExec { s with waiting := false } = .next u ∧ t = afterStep u := by
  by_cases hr : s.inReset = true
  · rw [cycle, if_pos hr] at h
    cases h
    exact .inl rfl
  rw [cycle_M (Bool.eq_false_iff.mpr hr) hm] at h
  by_cases hw : (s.waiting && !s.wakes && !Config.wakeUp s.free) = true
  · rw [cycleM_waits hh hw] at h
    cases h
    exact .inl rfl
  rw [cycleM_starts hh (Bool.eq_false_iff.mpr hw)] at h
  split at h
  · cases h
    exact .inr (.inl ⟨_, rfl⟩)
  · exact .inr (.inr (mapNext_next h))

/-- A halt request in M-mode ends the cycle in D-mode, unless reset is asserted (60 R474). -/
theorem cycle_halts {s : State} (hr : s.inReset = false) (hm : s.mode = .M) (hh : s.dm.haltreq = true) :
    cycle s = .next (enterDebug 3 s.pc s) := by
  rw [cycle_M hr hm, cycleM_halts hh]

/-- The ways a cycle leads from M-mode into D-mode (60 R471). -/
theorem cycle_M_entersDebug {s t : State} (hm : s.mode = .M) (h : cycle s = .next t) (ht : t.mode = .D) :
    (s.dm.haltreq = true ∧ t.dcsr.extractLsb' 6 3 = 3#3) ∨
      (s.dcsr.getLsbD 15 = true ∧ fetch s s.pc = some 0x00100073#32 ∧ t.dcsr.extractLsb' 6 3 = 1#3) ∨
      (s.stepping = true ∧ t.dcsr.extractLsb' 6 3 = 4#3) := by
  cases hh : s.dm.haltreq with
  | true =>
    cases hr : s.inReset with
    | true =>
      rw [cycle, if_pos hr] at h
      cases h
      exact absurd hm (mode_ne_M ht)
    | false =>
      rw [cycle_halts hr hm hh] at h
      cases h
      exact .inl ⟨rfl, dcsrWithCause_cause _ _⟩
  | false =>
    rcases cycle_M_unhalted_cases hm hh h with rfl | ⟨code, rfl⟩ | ⟨u, hu, rfl⟩
    · exact absurd hm (mode_ne_M ht)
    · exact .inr (.inr (afterStep_entersDebug (s := takeInterrupt code { s with waiting := false }) hm ht))
    · rcases fetchDecodeExec_M_cases (s := { s with waiting := false }) hm hu with
        ⟨hmode, hstep⟩ | ⟨hb, hw, rfl⟩
      · rw [show s.stepping = u.stepping from hstep.symm]
        exact .inr (.inr (afterStep_entersDebug (hmode.trans hm) ht))
      · rw [afterStep_of_not_stepping rfl]
        exact .inr (.inl ⟨hb, hw, dcsrWithCause_cause _ _⟩)

end Machine
end Sys2Proof
end

section
/-! Interrupts, halts, single steps and the timer at the boundaries of steps (60_exceptions R422, R452, R471 to
R476). -/

namespace Sys2Proof
namespace Machine

/-- Settles O44: the first clause is `cycle_interrupts`, the second `cycle_startsInstruction`; a hart that owes no
step goes on after the trap. -/
theorem interruptTakenExactlyWhen : Obligations.InterruptTakenExactlyWhen := by
  intro s hr hstep
  have hiff : ¬ NoInterrupt (deliver s) ↔
      (deliver s).mstatus.getLsbD 3 = true ∧ (deliver s).mip &&& (deliver s).mie ≠ 0 := by
    simp [not_noInterrupt_iff, hstep]
  constructor
  · intro h
    obtain ⟨code, t, hbit, htraps, ⟨-, howed⟩, hcycle⟩ := cycle_interrupts hr (hiff.mpr h)
    refine ⟨code, t, hbit, htraps, ?_⟩
    rw [step, hcycle, afterStep_of_not_stepping (howed.trans hstep)]
    rfl
  · intro h
    rw [step, cycle_startsInstruction hr (not_not.mp (mt hiff.mp h)), mapNext_mapNext]

/-- Settles O45: a halt request is the first thing a cycle of M-mode looks at. -/
theorem haltRequestWins : Obligations.HaltRequestWins := by
  intro s hr hm hh
  refine ⟨_, enterDebug_halts 3 _ _, ?_⟩
  rw [step, cycle_halts hr hm hh]
  rfl

/-- Settles O46: the instruction, by `fetchDecodeExec_M_cases`, and the interrupt's trap entry leave the step owed,
and `afterStep` then enters D-mode. -/
theorem singleStepHaltsAfterOneStep : Obligations.SingleStepHaltsAfterOneStep := by
  intro s hr hstep
  constructor
  · intro hn t ht hm
    have howed : t.stepping = true := by
      rcases fetchDecodeExec_M_cases (s := { deliver s with waiting := false }) hr.mode ht with
        ⟨-, hkept⟩ | ⟨-, -, rfl⟩
      · exact hkept.trans hstep
      · exact absurd hm (mode_ne_M rfl)
    refine ⟨_, enterDebug_halts 4 _ _, ?_⟩
    rw [step, cycle_startsInstruction hr hn, ht, ← afterStep_of_stepping howed hm]
    rfl
  · intro hn
    obtain ⟨code, t, hbit, htraps, ⟨hmode, howed⟩, hcycle⟩ := cycle_interrupts hr hn
    refine ⟨code, t, _, hbit, htraps, enterDebug_halts 4 _ _, ?_⟩
    rw [step, hcycle, afterStep_of_stepping (howed.trans hstep) (hmode.trans hr.mode)]
    rfl

/-- Settles O49: the cycle is `cycle_M_entersDebug`, and the timer's advance changes neither the mode nor `dcsr`. -/
theorem stepsFromMModeIntoDebugMode : Obligations.StepsFromMModeIntoDebugMode := by
  intro s t hm h ht
  obtain ⟨u, hu, rfl⟩ := step_next h
  exact cycle_M_entersDebug (t := u) hm hu ht

/-- Settles O7: the cycle of D-mode is `cycleD_decoded`, and the step adds the timer's advance. -/
theorem stepRunsTheProgramBuffer : Obligations.StepRunsTheProgramBuffer := by
  intro s k w i hr hm hk hw hd
  rw [step, cycle_D hr hm, cycleD_decoded hk hw hd]

/-- Settles O47: the cycle of D-mode is `cycleD_idle`, and the step adds the timer's advance. -/
theorem haltedHartIdles : Obligations.HaltedHartIdles := by
  intro s hr hm hidle
  refine ⟨?_, fun hstop => tickAmount_pos (.inr hstop)⟩
  rw [step, cycle_D hr hm, cycleD_idle hidle]
  rfl

/-- Settles O56: a step is a cycle and `tick`, whose amount is `tickAmount_pos`. -/
theorem timerAdvancesEveryStep : Obligations.TimerAdvancesEveryStep := by
  intro s t h
  obtain ⟨u, hu, rfl⟩ := step_next h
  exact ⟨u, hu, tickAmount_pos, rfl⟩

end Machine
end Sys2Proof
end

section
/-! SUPPORT. What an instruction of the program buffer leaves of the trap and debug registers and of `cmderr` (60 R476,
R479). -/

namespace Sys2Proof
namespace Machine

/-- The trap and debug registers. -/
def trapRegisters (s : State) : Word × Word × Word × Word × Word × Word × Word × Word :=
  (s.mstatus, s.mie, s.mtvec, s.mepc, s.mcause, s.mtval, s.dcsr, s.dpc)

/-- An exception in D-mode is no trap entry (60 R476). -/
theorem raise_of_D {s : State} (hm : s.mode = .D) (e : Exc) (v : Word) : raise e v s = debugException s :=
  if_neg (mode_ne_M hm)

/-- The branches of `Primitives` that belong to M-mode say nothing of D-mode. -/
theorem not_M_of_D {s : State} {p : Prop} (hM : s.mode = .M) (hD : s.mode = .D) : p := absurd hM (mode_ne_M hD)

/-- A next state in D-mode has the trap and debug registers as they were. -/
def KeepsTrapRegisters (s t : State) : Prop := s.mode = .D → t.mode = .D ∧ trapRegisters t = trapRegisters s

/-- In D-mode only the CSR instructions write a trap or debug register; DRET, which writes none, leaves D-mode. -/
theorem keepsTrapRegisters_primitives {i : Instr} (hcsr : isCsrInstr i = false) (hdret : i ≠ .dret) :
    Primitives i KeepsTrapRegisters where
  refl _ hD := ⟨hD, rfl⟩
  trans h h' hD := ⟨(h' (h hD).1).1, (h' (h hD).1).2.trans (h hD).2⟩
  setReg _ _ _ hD := ⟨hD, rfl⟩
  advance _ hD := ⟨hD, rfl⟩
  raise s e v hD := by
    rw [raise_of_D hD]
    exact ⟨hD, rfl⟩
  read s z a hD := by
    rw [memRead_frame]
    exact ⟨hD, rfl⟩
  write s z a v hD := by
    rw [memWrite_frame]
    exact ⟨hD, rfl⟩
  csr h := by simp [hcsr] at h
  reserve _ _ _ _ _ hD := ⟨hD, rfl⟩
  jump _ _ hM _ _ := not_M_of_D hM
  transfer _ _ hD := ⟨hD, rfl⟩
  ret _ _ hM := not_M_of_D hM
  halt _ _ hM _ := not_M_of_D hM
  endBuffer _ _ _ hD := ⟨hD, rfl⟩
  wait _ _ hM := not_M_of_D hM
  refetch _ hD := ⟨hD, rfl⟩
  leave h := absurd h hdret

/-- `cmderr` after an instruction of the program buffer that may have raised an exception (60 R476, R479): as it was,
or 3 where no error stood, and the buffer ended. -/
def CmderrKeptOrRaised (d e : DebugModule) : Prop :=
  e.cmderr = d.cmderr ∨ (d.cmderr = 0 ∧ e.cmderr = 3 ∧ e.pbIndex = none)

/-- The same along a chain of operations: a program buffer that has ended is not started again. -/
def TracksCmderr (s t : State) : Prop :=
  s.mode = .D → t.mode = .D ∧ CmderrKeptOrRaised s.dm t.dm ∧ (s.dm.pbIndex = none → t.dm.pbIndex = none)

theorem TracksCmderr.of_dm {s t : State} (hmode : t.mode = s.mode) (hdm : t.dm = s.dm) : TracksCmderr s t := by
  intro hD
  rw [hmode, hdm]
  exact ⟨hD, .inl rfl, id⟩

theorem TracksCmderr.of_pbIndex {s : State} {b : Option Nat} (hb : s.dm.pbIndex = none → b = none) :
    TracksCmderr s { s with dm := { s.dm with pbIndex := b } } := fun hD => ⟨hD, .inl rfl, hb⟩

theorem TracksCmderr.trans {a b c : State} (h : TracksCmderr a b) (h' : TracksCmderr b c) : TracksCmderr a c := by
  intro hD
  obtain ⟨hbD, hab, hend⟩ := h hD
  obtain ⟨hcD, hbc, hend'⟩ := h' hbD
  refine ⟨hcD, ?_, hend' ∘ hend⟩
  rcases hab with hkept | ⟨hzero, hthree, hnone⟩ <;> rcases hbc with hkept' | ⟨hzero', hthree', hnone'⟩
  · exact .inl (hkept'.trans hkept)
  · exact .inr ⟨hkept ▸ hzero', hthree', hnone'⟩
  · exact .inr ⟨hzero, hkept'.trans hthree, hend' hnone⟩
  · exact absurd (hthree.symm.trans hzero') (by decide)

/-- An exception in D-mode sets `cmderr` only where no error stands. -/
theorem debugException_tracksCmderr (s : State) : TracksCmderr s (debugException s) := by
  intro hD
  refine ⟨hD, ?_, fun _ => rfl⟩
  by_cases h : s.dm.cmderr = 0
  · exact .inr ⟨h, if_pos h, rfl⟩
  · exact .inl (if_neg h)

theorem advance_tracksCmderr (s : State) : TracksCmderr s s.advance := by
  intro hD
  rw [State.advance, if_neg (mode_ne_M hD), if_neg (mode_ne_M hD)]
  exact ⟨hD, .inl rfl, fun h => by rw [DebugModule.nextIndex, h]; rfl⟩

theorem debugTransfer_tracksCmderr (s : State) : TracksCmderr s (debugTransfer s) :=
  .of_pbIndex fun h => by rw [h]; rfl

theorem tracksCmderr_primitives {i : Instr} (hdret : i ≠ .dret) : Primitives i TracksCmderr where
  refl _ := .of_dm rfl rfl
  trans := TracksCmderr.trans
  setReg _ _ _ := .of_dm rfl rfl
  advance s := advance_tracksCmderr s
  raise s e v hD := by
    rw [raise_of_D hD]
    exact debugException_tracksCmderr s hD
  read s z a := by
    rw [memRead_frame]
    exact .of_dm rfl rfl
  write s z a v := by
    rw [memWrite_frame]
    exact .of_dm rfl rfl
  csr _ _ _ _ := .of_dm rfl rfl
  reserve _ _ _ _ _ := .of_dm rfl rfl
  jump _ _ hM _ _ := not_M_of_D hM
  transfer s _ := debugTransfer_tracksCmderr s
  ret _ _ hM := not_M_of_D hM
  halt _ _ hM _ := not_M_of_D hM
  endBuffer _ _ _ := .of_pbIndex fun _ => rfl
  wait _ _ hM := not_M_of_D hM
  refetch _ := .of_dm rfl rfl
  leave h := absurd h hdret

/-- No instruction of the program buffer but a CSR instruction changes a trap or debug register (60 R476). -/
theorem exec_D_trapRegisters {i : Instr} {s t : State} (hD : s.mode = .D) (hcsr : isCsrInstr i = false)
    (h : exec i s = .next t) : trapRegisters t = trapRegisters s := by
  by_cases hdret : i = .dret
  · subst hdret
    rw [exec_dret_D hD] at h
    cases h
    rfl
  · exact ((keepsTrapRegisters_primitives hcsr hdret).exec h hD).2

/-- An instruction of the program buffer changes `cmderr` only by an exception where no error stands (60 R476, R479). -/
theorem exec_D_cmderr {i : Instr} {s t : State} (hD : s.mode = .D) (h : exec i s = .next t) :
    CmderrKeptOrRaised s.dm t.dm := by
  by_cases hdret : i = .dret
  · subst hdret
    rw [exec_dret_D hD] at h
    cases h
    exact .inl rfl
  · exact ((tracksCmderr_primitives hdret).exec h hD).2.1

end Machine
end Sys2Proof
end

section
/-! The trap registers: what D-mode leaves of them, what `mip` is, and MRET after a trap (60_exceptions R420, R430,
R440, R476). -/

namespace Sys2Proof
namespace Machine

/-- Settles O48: by what every other instruction is made of, `exec_D_trapRegisters`. -/
theorem debugModeKeepsTrapRegisters : Obligations.DebugModeKeepsTrapRegisters := by
  intro i s t hD h hother
  have hcsr : isCsrInstr i = false := by
    cases i with
    | csrrw rd n r | csrrs rd n r | csrrc rd n r | csrrwi rd n r | csrrsi rd n r | csrrci rd n r =>
      simpa using hother rd n r
    | _ => rfl
  simpa only [trapRegisters, Prod.mk.injEq] using exec_D_trapRegisters hD hcsr h

/-- A flag put at bit `n` of a word. -/
theorem flagWord_getLsbD {m : Word} {n k : Nat} (hm : ∀ j < 32, m.getLsbD j = decide (j = n)) (hk : k < 32)
    (b : Bool) : (if b then m else 0).getLsbD k = (decide (k = n) && b) := by
  cases b with
  | true => rw [if_pos rfl, hm k hk, Bool.and_true]
  | false => rw [if_neg Bool.false_ne_true, Bool.and_false]; exact BitVec.getLsbD_zero

/-- The lines are the upper half of `mip`, the timer and the software bit are bits 7 and 3 (60 R420). -/
theorem mip_getLsbD (s : State) {k : Nat} (hk : k < 32) :
    s.mip.getLsbD k =
      if 16 ≤ k then s.irq.getLsbD (k - 16) else if k = 7 then s.mtip else if k = 3 then s.msip else false := by
  have hlines : (s.irq.setWidth 32 <<< 16).getLsbD k = (decide (16 ≤ k) && s.irq.getLsbD (k - 16)) := by
    rw [BitVec.getLsbD_shiftLeft, BitVec.getLsbD_setWidth, decide_eq_true hk, decide_eq_true (by omega : k - 16 < 32)]
    simp [← decide_not]
  rw [State.mip, BitVec.getLsbD_or, BitVec.getLsbD_or, hlines, flagWord_getLsbD (n := 7) (by decide) hk,
    flagWord_getLsbD (n := 3) (by decide) hk]
  by_cases hline : 16 ≤ k
  · simp [hline, show k ≠ 7 by omega, show k ≠ 3 by omega]
  by_cases h7 : k = 7
  · simp [h7]
  · by_cases h3 : k = 3 <;> simp [hline, h7, h3]

/-- Settles O39: `mip` bit by bit is `mip_getLsbD`, and none of its sources is a CSR. -/
theorem pendingBitsMirrorTheirSources : Obligations.PendingBitsMirrorTheirSources := by
  intro s
  refine ⟨fun k hk => (mip_getLsbD s hk).trans ?_, fun _ _ => rfl⟩
  rw [State.mtip, BitVec.ule_eq_decide]

/-! ### MRET after a trap -/

/-- A trap that `Traps` describes leaves in `mstatus` MIE 0 and the old MIE as MPIE (60 R430). -/
theorem Traps.mstatus_eq {interrupt : Bool} {code : Nat} {v e : Word} {s t : State}
    (h : Traps interrupt code v e s t) : t.mstatus = mstatusWord false (s.mstatus.getLsbD 3) := by
  obtain ⟨-, -, -, hmstatus, -⟩ := h
  apply BitVec.eq_of_toNat_eq
  rw [hmstatus, mstatusWord_toNat]
  rfl

theorem mstatusWord_mie (mie mpie : Bool) : (mstatusWord mie mpie).getLsbD 3 = mie := by
  cases mie <;> cases mpie <;> rfl

theorem mstatusWord_mpie (mie mpie : Bool) : (mstatusWord mie mpie).getLsbD 7 = mpie := by
  cases mie <;> cases mpie <;> rfl

/-- Settles O32: MRET is `trapReturn`; the trap has put the address in `mepc`, MIE in MPIE, and a loop on its way back
to the LR.W where `trapReturn` finds it, by `parked_returns`. -/
theorem mretUndoesTrapEntry : Obligations.MretUndoesTrapEntry := by
  intro s t interrupt code v e hm he htraps
  have hmstatus := htraps.mstatus_eq
  obtain ⟨hmepc, -, hmtval, -, -, -, hregs, hstorage, hframe⟩ := htraps
  have hmode : t.mode = .M := (congrArg State.mode hframe).trans hm
  have hparked : t.scParked = s.parkLoop t.mepc := congrArg State.scParked hframe
  have hback : t.mepc = e := BitVec.eq_of_toNat_eq (by omega)
  have hmie : (trapReturn t).mstatus.getLsbD 3 = s.mstatus.getLsbD 3 := by
    rw [trapReturn_mstatus, mstatusWord_mie, State.mstatusMPIE, hmstatus, mstatusWord_mpie]
  exact ⟨_, exec_mret_M hmode, hback, hmie, mstatusWord_mpie _ _, hback, rfl, hmtval, hregs, hstorage,
    fun l hl hp => parked_returns hl hp hparked⟩

end Machine
end Sys2Proof
end

section
/-! SUPPORT. The timer and software interrupt module on the data port (60 R450 to R457): which word an address names,
what the word holds and takes, and the loads, stores and atomics that reach the module. -/

namespace Sys2Proof
namespace Machine

/-! ### The five words (R451) -/

/-- The address of a word of the module. -/
def timerRegAddr (cfg : Config) : TimerReg → Word
  | .mtimecmpLo => cfg.timerBase + cfg.mtimecmpOff
  | .mtimecmpHi => cfg.timerBase + cfg.mtimecmpOff + 4
  | .mtimeLo => cfg.timerBase + cfg.mtimeOff
  | .mtimeHi => cfg.timerBase + cfg.mtimeOff + 4
  | .msip => cfg.timerBase + cfg.msipOff

theorem timerReg_addr {cfg : Config} {a : Word} {r : TimerReg} (h : timerReg cfg a = some r) :
    a = timerRegAddr cfg r := by
  unfold timerReg at h
  split_ifs at h <;> cases h <;> assumption

theorem timerReg_eq_none {cfg : Config} {a : Word} : timerReg cfg a = none ↔ a ∉ timerAddrs cfg := by
  unfold timerReg timerAddrs
  split_ifs <;> simp_all

/-- An address of the module names a word. -/
theorem timerReg_of_mem {cfg : Config} {a : Word} (h : a ∈ timerAddrs cfg) : ∃ r, timerReg cfg a = some r :=
  Option.ne_none_iff_exists'.mp fun hnone => timerReg_eq_none.mp hnone h

/-! ### Halves of 64-bit registers -/

theorem lowWord_toNat (m : BitVec 64) : (lowWord m).toNat = m.toNat % 2 ^ 32 := by
  rw [lowWord, BitVec.extractLsb'_toNat, Nat.shiftRight_zero]

theorem highWord_toNat (m : BitVec 64) : (highWord m).toNat = m.toNat / 2 ^ 32 := by
  have := m.isLt
  rw [highWord, BitVec.extractLsb'_toNat, Nat.shiftRight_eq_div_pow]
  omega

/-- Two words put side by side. -/
theorem append_word_toNat (hi lo : Word) : (hi ++ lo).toNat = hi.toNat * 2 ^ 32 + lo.toNat := by
  rw [BitVec.toNat_append, ← Nat.shiftLeft_add_eq_or_of_lt lo.isLt, Nat.shiftLeft_eq]

theorem setLow_toNat (m : BitVec 64) (b : Word) :
    (highWord m ++ b).toNat = m.toNat / 2 ^ 32 * 2 ^ 32 + b.toNat := by rw [append_word_toNat, highWord_toNat]

theorem setHigh_toNat (m : BitVec 64) (b : Word) :
    (b ++ lowWord m).toNat = b.toNat * 2 ^ 32 + m.toNat % 2 ^ 32 := by rw [append_word_toNat, lowWord_toNat]

/-- Bit 0 of a word, as the remainder of a division. -/
theorem getLsbD_zero_iff (b : Word) : b.getLsbD 0 = true ↔ b.toNat % 2 = 1 := by
  rw [BitVec.getLsbD, Nat.testBit_zero, decide_eq_true_eq]

/-! ### What a word holds and takes (R451, R453, R455, R457) -/

/-- What the three registers of the module hold. -/
def timerContents (s : State) : TimerContents := ⟨s.mtime, s.mtimecmp, s.msip⟩

theorem timerLoad_holds {s : State} {a : Word} {r : TimerReg} (h : timerReg s.cfg a = some r) :
    TimerHolds s a (timerLoad s r) := by
  obtain rfl := timerReg_addr h
  cases r with
  | mtimecmpLo => exact .inl ⟨rfl, lowWord_toNat _⟩
  | mtimecmpHi => exact .inr (.inl ⟨rfl, highWord_toNat _⟩)
  | mtimeLo => exact .inr (.inr (.inl ⟨rfl, lowWord_toNat _⟩))
  | mtimeHi => exact .inr (.inr (.inr (.inl ⟨rfl, highWord_toNat _⟩)))
  | msip => exact .inr (.inr (.inr (.inr ⟨rfl, boolWord_toNat s.msip⟩)))

/-- A store to a half of `mtime` sets it or is ignored (R457; log 13). -/
theorem mtimeStore_cases {b : Bool} {m set : BitVec 64} {n : Nat} (h : set.toNat = n) :
    (if b then set else m) = m ∨ (if b then set else m).toNat = n := by
  cases b with
  | false => exact .inl rfl
  | true => exact .inr h

theorem timerStore_takes {s : State} {a b : Word} {r : TimerReg} (h : timerReg s.cfg a = some r) :
    TimerTakes s a b (timerStore s r b) := by
  obtain rfl := timerReg_addr h
  cases r with
  | mtimecmpLo => exact .inl ⟨rfl, setLow_toNat _ b, rfl, rfl⟩
  | mtimecmpHi => exact .inr (.inl ⟨rfl, setHigh_toNat _ b, rfl, rfl⟩)
  | mtimeLo => exact .inr (.inr (.inl ⟨rfl, mtimeStore_cases (setLow_toNat _ b), rfl, rfl⟩))
  | mtimeHi => exact .inr (.inr (.inr (.inl ⟨rfl, mtimeStore_cases (setHigh_toNat _ b), rfl, rfl⟩)))
  | msip => exact .inr (.inr (.inr (.inr ⟨rfl, getLsbD_zero_iff b, rfl, rfl⟩)))

/-- `TimerTakes` speaks of the contents of the module alone. -/
theorem TimerTakes.congr {s t u : State} {a b : Word} (h : TimerTakes s a b t)
    (e : timerContents u = timerContents t) : TimerTakes s a b u := by
  simp only [timerContents, TimerContents.mk.injEq] at e
  obtain ⟨hmtime, hmtimecmp, hmsip⟩ := e
  unfold TimerTakes
  rw [hmtime, hmtimecmp, hmsip]
  exact h

/-! ### Reads and writes of the module -/

section

variable {s : State} {a : Word}

theorem memRead_timerWord {r : TimerReg} (hd : dataAnswer s.cfg.dmap a.toNat = .timer) (h : timerReg s.cfg a = some r) :
    memRead .word a s = (s, some (timerLoad s r)) := by
  simp only [memRead, hd, timerWordAccess, h]

theorem memRead_timerOther {z : AccessSize} (hd : dataAnswer s.cfg.dmap a.toNat = .timer)
    (h : timerWordAccess s.cfg z a = none) : memRead z a s = (s, (Config.timerOtherLoad s.free).map z.clip) := by
  simp only [memRead, hd, h]

/-- A write that completes replaces the module's contents, by contents with property `P`, and nothing else but perhaps
the reservation. -/
def WritesTimer (z : AccessSize) (a v : Word) (s : State) (P : State → Prop) : Prop :=
  ∃ c, memWrite z a v s = (breakReservation a (setTimer c s), true) ∧ ∀ t, timerContents t = c → P t

theorem memWrite_timerWord {r : TimerReg} {v : Word} (hd : dataAnswer s.cfg.dmap a.toNat = .timer)
    (h : timerReg s.cfg a = some r) : WritesTimer .word a v s (TimerTakes s a v) := by
  refine ⟨timerContents (timerStore s r v), ?_, fun t ht => (timerStore_takes h).congr ht⟩
  simp only [memWrite, hd, timerWordAccess, h]
  rfl

/-- Any other write completes somehow or answers with an error (log 14). -/
theorem memWrite_timerOther {z : AccessSize} {v : Word} (hd : dataAnswer s.cfg.dmap a.toNat = .timer)
    (h : timerWordAccess s.cfg z a = none) :
    WritesTimer z a v s (fun _ => True) ∨ memWrite z a v s = (s, false) := by
  unfold WritesTimer
  simp only [memWrite, hd, h]
  cases Config.timerOtherStore s.free with
  | none => exact .inr rfl
  | some c => exact .inl ⟨c, rfl, fun _ _ => trivial⟩

end

/-! ### Loads and LR.W -/

section

variable {i : Instr} {s : State} {a : Word} {rd : RegNum}

theorem load_timerWord {ext : Word → Word} {P : Word → Prop} {r : TimerReg} (hi : exec i s = loadOp .word ext rd a s)
    (ha : a.toNat % 4 = 0) (hd : dataAnswer s.cfg.dmap a.toNat = .timer) (h : timerReg s.cfg a = some r)
    (hP : P (ext (timerLoad s r))) : Yields i s rd P := by
  refine yields_of_exec ?_ hP
  simp only [hi, loadOp, (aligned_iff (z := .word)).mpr ha, if_true, memRead_timerWord hd h]

theorem load_timerOther {z : AccessSize} {ext : Word → Word} {P : Word → Prop} (hi : exec i s = loadOp z ext rd a s)
    (ha : a.toNat % z.bytes = 0) (hd : dataAnswer s.cfg.dmap a.toNat = .timer) (h : timerWordAccess s.cfg z a = none)
    (hP : ∀ v, P (ext v)) : ReadsTimerSomehow i s rd a P := by
  have hload : exec i s = _ := hi
  simp only [loadOp, aligned_iff.mpr ha, if_true, memRead_timerOther hd h] at hload
  cases hv : Config.timerOtherLoad s.free with
  | none =>
    rw [hv] at hload
    exact .inr (raisesOn_of_exec (e := .loadAccessFault) hload)
  | some v =>
    rw [hv] at hload
    exact .inl (yields_of_exec hload (hP _))

end

section

variable {s : State} {rd rs1 : RegNum} {aq rl : Bool}

/-- An LR.W whose read succeeds. -/
theorem lrW_reserves {P : Word → Prop} {v : Word} (ha : (s.getReg rs1).toNat % 4 = 0)
    (hread : memRead .word (s.getReg rs1) s = (s, some v)) (hP : P v) :
    Reserves (.lrW aq rl rd rs1) s rd (s.getReg rs1) P := by
  obtain ⟨t, ht, hcomputes⟩ := writeRd_computes rd v
    { s with reservation := some (s.getReg rs1), scLoop := s.loopAtLr }
  refine ⟨v, t, ?_, hP, hcomputes⟩
  simp only [exec, execLrW, (aligned_iff (z := .word)).mpr ha, if_true, hread, ht]

theorem lrW_timerOther (ha : (s.getReg rs1).toNat % 4 = 0) (hd : dataAnswer s.cfg.dmap (s.getReg rs1).toNat = .timer)
    (h : timerReg s.cfg (s.getReg rs1) = none) :
    Reserves (.lrW aq rl rd rs1) s rd (s.getReg rs1) (fun _ => True) ∨
      RaisesOn (.lrW aq rl rd rs1) s 5 (s.getReg rs1) := by
  have hread := memRead_timerOther (z := .word) hd h
  cases hv : Config.timerOtherLoad s.free with
  | none =>
    rw [hv] at hread
    refine .inr (raisesOn_of_exec (e := .loadAccessFault) ?_)
    simp only [exec, execLrW, (aligned_iff (z := .word)).mpr ha, if_true, hread, Option.map_none]
  | some v =>
    rw [hv] at hread
    exact .inl (lrW_reserves ha hread trivial)

end

/-! ### Stores, SC.W and the AMOs -/

section

variable {i : Instr} {s : State} {z : AccessSize} {ea v : Word}

theorem store_setsTimer {P : State → Prop} (hi : exec i s = storeOp z ea v s) (ha : ea.toNat % z.bytes = 0)
    (hw : WritesTimer z ea v s P) : SetsTimer i s ea P := by
  obtain ⟨c, hwrite, hP⟩ := hw
  refine ⟨(breakReservation ea (setTimer c s)).advance, ?_, hP _ rfl, getReg_congr rfl, fun _ => rfl,
    advance_goesOn (breakReservation ea (setTimer c s)), breakReservation_covered ea (setTimer c s), rfl⟩
  simp only [hi, storeOp, aligned_iff.mpr ha, if_true, hwrite]

theorem store_fails (hi : exec i s = storeOp z ea v s) (ha : ea.toNat % z.bytes = 0)
    (hw : memWrite z ea v s = (s, false)) : RaisesOn i s 7 ea :=
  raisesOn_of_exec (e := .storeAccessFault) (by simp only [hi, storeOp, aligned_iff.mpr ha, if_true, hw])

theorem store_timerOther (hi : exec i s = storeOp z ea v s) (ha : ea.toNat % z.bytes = 0)
    (hd : dataAnswer s.cfg.dmap ea.toNat = .timer) (h : timerWordAccess s.cfg z ea = none) :
    SetsTimer i s ea (fun _ => True) ∨ RaisesOn i s 7 ea :=
  (memWrite_timerOther hd h).imp (store_setsTimer hi ha) (store_fails hi ha)

end

section

variable {s : State} {rd rs1 rs2 : RegNum} {aq rl : Bool}

/-- An SC.W that stores, its write complete. -/
theorem exec_scW_written {u : State} (ha : (s.getReg rs1).toNat % 4 = 0) (hs : ScStores s (s.getReg rs1))
    (hwrite : memWrite .word (s.getReg rs1) (s.getReg rs2) s = (u, true)) :
    exec (.scW aq rl rd rs1 rs2) s = writeRd rd 0 { u with reservation := none, scLoop := none } := by
  obtain ⟨hres, hspurious⟩ := hs
  simp only [exec, execScW, (aligned_iff (z := .word)).mpr ha, hres, hspurious, Bool.not_false, Bool.and_self, if_true,
    hwrite]

/-- An SC.W that stores, its write answered with an error. -/
theorem scW_writeFails (ha : (s.getReg rs1).toNat % 4 = 0) (hs : ScStores s (s.getReg rs1))
    (hwrite : memWrite .word (s.getReg rs1) (s.getReg rs2) s = (s, false)) :
    RaisesOn (.scW aq rl rd rs1 rs2) s 7 (s.getReg rs1) := by
  obtain ⟨hres, hspurious⟩ := hs
  refine raisesOn_of_exec (e := .storeAccessFault) ?_
  simp only [exec, execScW, (aligned_iff (z := .word)).mpr ha, hres, hspurious, Bool.not_false, Bool.and_self, if_true,
    hwrite]

theorem scW_setsTimer {P : State → Prop} (ha : (s.getReg rs1).toNat % 4 = 0) (hs : ScStores s (s.getReg rs1))
    (hw : WritesTimer .word (s.getReg rs1) (s.getReg rs2) s P) :
    ConditionallySetsTimer (.scW aq rl rd rs1 rs2) s rd P := by
  obtain ⟨c, hwrite, hP⟩ := hw
  obtain ⟨t, ht, hreg, hnext, -, -⟩ := writeRd_computes rd 0 { setTimer c s with reservation := none, scLoop := none }
  cases ht
  exact ⟨_, exec_scW_written ha hs hwrite, hP _ rfl, hreg, fun _ => rfl, hnext, rfl⟩

theorem scW_timerOther (ha : (s.getReg rs1).toNat % 4 = 0) (hs : ScStores s (s.getReg rs1))
    (hd : dataAnswer s.cfg.dmap (s.getReg rs1).toNat = .timer) (h : timerReg s.cfg (s.getReg rs1) = none) :
    ConditionallySetsTimer (.scW aq rl rd rs1 rs2) s rd (fun _ => True) ∨
      RaisesOn (.scW aq rl rd rs1 rs2) s 7 (s.getReg rs1) :=
  (memWrite_timerOther (z := .word) hd h).imp (scW_setsTimer ha hs) (scW_writeFails ha hs)

end

section

variable {i : Instr} {f : Word → Word → Word} {s : State} {rd rs1 rs2 : RegNum}

/-- An AMO whose read succeeds and whose write goes to the module. -/
theorem amo_swapsTimer {P : Word → State → Prop} {old : Word} (hi : exec i s = amoOp f rd rs1 rs2 s)
    (ha : (s.getReg rs1).toNat % 4 = 0) (hread : memRead .word (s.getReg rs1) s = (s, some old))
    (hw : WritesTimer .word (s.getReg rs1) (f old (s.getReg rs2)) s (P old)) :
    SwapsTimer i s (s.getReg rs1) rd P := by
  obtain ⟨c, hwrite, hP⟩ := hw
  have hres := breakReservation_covered (s.getReg rs1) (setTimer c s)
  obtain ⟨t, ht, hreg, hnext, -, -⟩ := writeRd_computes rd old (breakReservation (s.getReg rs1) (setTimer c s))
  cases ht
  refine ⟨old, _, ?_, hP _ rfl, hreg, fun _ => rfl, hnext, hres, rfl⟩
  simp only [hi, amoOp, (aligned_iff (z := .word)).mpr ha, if_true, hread, hwrite]
  rfl

theorem amo_timerOther (hi : exec i s = amoOp f rd rs1 rs2 s) (ha : (s.getReg rs1).toNat % 4 = 0)
    (hd : dataAnswer s.cfg.dmap (s.getReg rs1).toNat = .timer) (h : timerReg s.cfg (s.getReg rs1) = none) :
    SwapsTimer i s (s.getReg rs1) rd (fun _ _ => True) ∨ RaisesOn i s 7 (s.getReg rs1) := by
  have hread := memRead_timerOther (z := .word) hd h
  cases hv : Config.timerOtherLoad s.free with
  | none =>
    rw [hv] at hread
    refine .inr (raisesOn_of_exec (e := .storeAccessFault) ?_)
    simp only [hi, amoOp, (aligned_iff (z := .word)).mpr ha, if_true, hread, Option.map_none]
  | some old =>
    rw [hv] at hread
    rcases memWrite_timerOther (z := .word) (v := f old (s.getReg rs2)) hd h with hw | hfails
    · exact .inl (amo_swapsTimer hi ha hread hw)
    · refine .inr (raisesOn_of_exec (e := .storeAccessFault) ?_)
      simp only [hi, amoOp, (aligned_iff (z := .word)).mpr ha, if_true, hread, Option.map_some, AccessSize.clip, hfails]

end

end Machine
end Sys2Proof
end

section
/-! Data accesses that the timer and software interrupt module answers (60 R451 to R457). -/

namespace Sys2Proof
namespace Machine

/-- Settles O22: an address of one of the five words names it by `timerReg_of_mem`, and what it holds is
`timerLoad_holds`; a byte or halfword load and a word load elsewhere are `load_timerOther`. -/
theorem timerWordLoads : Obligations.TimerWordLoads := by
  intro s rd rs1 imm aq rl ea a
  have byteAligned : ea.toNat % AccessSize.byte.bytes = 0 := Nat.mod_one _
  refine ⟨?lw, ?lrW, fun hd => ⟨?lb, ?lbu, fun ha => ⟨?lh, ?lhu⟩, fun ha hout => ?lwOther⟩,
    fun hd ha hout => ?lrWOther⟩
  case lw =>
    rintro ⟨hd, -, ha, hmem⟩
    obtain ⟨r, hr⟩ := timerReg_of_mem hmem
    exact load_timerWord (ext := id) rfl ha hd hr (timerLoad_holds hr)
  case lrW =>
    rintro ⟨hd, -, ha, hmem⟩
    obtain ⟨r, hr⟩ := timerReg_of_mem hmem
    exact lrW_reserves ha (memRead_timerWord hd hr) (timerLoad_holds hr)
  case lb => exact load_timerOther rfl byteAligned hd rfl sextByte_range
  case lbu => exact load_timerOther rfl byteAligned hd rfl zextByte_lt
  case lh => exact load_timerOther rfl ha hd rfl sextHalf_range
  case lhu => exact load_timerOther rfl ha hd rfl zextHalf_lt
  case lwOther => exact load_timerOther (z := .word) (ext := id) rfl ha hd (timerReg_eq_none.mpr hout) fun _ => trivial
  case lrWOther => exact lrW_timerOther ha hd (timerReg_eq_none.mpr hout)

/-- Settles O23: a word stored to one of the five words is taken as `memWrite_timerWord` says, by SW, by SC.W and by
the write of an AMO; every other store is `memWrite_timerOther`. -/
theorem timerWordStores : Obligations.TimerWordStores := by
  intro s rd rs1 rs2 imm aq rl ea a b sc
  have byteAligned : ea.toNat % AccessSize.byte.bytes = 0 := Nat.mod_one _
  refine ⟨?sw, ?atomics, fun hd => ⟨?sb, fun ha => ?sh, fun ha hout => ?swOther⟩,
    fun hd ha hout => ⟨fun hs => ?scOther, fun p hp => ?amoOther⟩⟩
  case sw =>
    rintro ⟨hd, -, ha, hmem⟩
    obtain ⟨r, hr⟩ := timerReg_of_mem hmem
    exact store_setsTimer rfl ha (memWrite_timerWord hd hr)
  case atomics =>
    rintro ⟨hd, -, ha, hmem⟩
    obtain ⟨r, hr⟩ := timerReg_of_mem hmem
    refine ⟨fun hs => scW_setsTimer ha hs (memWrite_timerWord hd hr), fun p hp => ?_⟩
    obtain ⟨f, hf, hP⟩ := amoForms_exec aq rl rd rs1 rs2 p hp
    obtain ⟨c, hwrite, htakes⟩ := memWrite_timerWord (v := f (timerLoad s r) b) hd hr
    exact amo_swapsTimer (hf s) ha (memRead_timerWord hd hr)
      ⟨c, hwrite, fun t ht => ⟨timerLoad_holds hr, _, hP _ _, htakes t ht⟩⟩
  case sb => exact store_timerOther rfl byteAligned hd rfl
  case sh => exact store_timerOther rfl ha hd rfl
  case swOther => exact store_timerOther rfl ha hd (timerReg_eq_none.mpr hout)
  case scOther => exact scW_timerOther ha hs hd (timerReg_eq_none.mpr hout)
  case amoOther =>
    obtain ⟨f, hf, -⟩ := amoForms_exec aq rl rd rs1 rs2 p hp
    exact amo_timerOther (hf s) ha hd (timerReg_eq_none.mpr hout)

end Machine
end Sys2Proof
end

section
/-! SUPPORT. The Access Register command (60 R478, R479): its fields, the registers its `regno` names, and one equation
for each way a write to `command` ends. -/

namespace Sys2Proof
namespace Machine

/-! ### The states of a hart (R481) -/

section

variable {s : State}

theorem hartStatus_nonExistent_iff : s.hartStatus = .nonExistent ↔ s.dm.hartsel ≠ 0 := by
  unfold State.hartStatus
  split_ifs <;> simp_all

theorem hartStatus_unavailable_iff : s.hartStatus = .unavailable ↔ s.dm.hartsel = 0 ∧ s.inReset = true := by
  unfold State.hartStatus
  split_ifs <;> simp_all

theorem hartStatus_running_iff :
    s.hartStatus = .running ↔ s.dm.hartsel = 0 ∧ s.inReset = false ∧ s.mode = .M := by
  unfold State.hartStatus
  cases hm : s.mode <;> split_ifs <;> simp_all

theorem hartStatus_halted_iff :
    s.hartStatus = .halted ↔ s.dm.hartsel = 0 ∧ s.inReset = false ∧ s.mode = .D := by
  unfold State.hartStatus
  cases hm : s.mode <;> split_ifs <;> simp_all

end

/-! ### The fields of `command` (Table 10) -/

section

variable {v : Word}

theorem cmdtype_iff : v.extractLsb' 24 8 = 0#8 ↔ v.toNat / 2 ^ 24 = 0 := by
  have := v.isLt
  rw [← BitVec.toNat_inj, BitVec.extractLsb'_toNat, Nat.shiftRight_eq_div_pow, BitVec.toNat_zero]
  omega

theorem aarsize_iff : v.extractLsb' 20 3 = 2#3 ↔ v.toNat / 2 ^ 20 % 8 = 2 := by
  rw [← BitVec.toNat_inj, BitVec.extractLsb'_toNat, Nat.shiftRight_eq_div_pow]
  rfl

theorem regno_toNat (v : Word) : (v.extractLsb' 0 16).toNat = v.toNat % 2 ^ 16 := by
  rw [BitVec.extractLsb'_toNat, Nat.shiftRight_zero]

end

/-! ### The registers `regno` names -/

section

variable {k : BitVec 16} {s : State} {d : Word}

theorem regno_csr {n : CsrNum} (h : k.toNat = n.toNat) : k.toNat < 0x1000 ∧ k.setWidth 12 = n := by
  have := n.isLt
  refine ⟨by omega, BitVec.eq_of_toNat_eq ?_⟩
  rw [BitVec.toNat_setWidth]
  omega

theorem regno_gpr {r : RegNum} (h : k.toNat = 0x1000 + r.toNat) :
    ¬ k.toNat < 0x1000 ∧ k.toNat < 0x1020 ∧ k.setWidth 5 = r := by
  have := r.isLt
  refine ⟨by omega, by omega, BitVec.eq_of_toNat_eq ?_⟩
  rw [BitVec.toNat_setWidth]
  omega

theorem debugRegRead_csr {n : CsrNum} {c : Csr} (hc : csrOfNum n = some c) (h : k.toNat = n.toNat) :
    debugRegRead k s = some (csrRead c s) := by
  obtain ⟨hlow, hn⟩ := regno_csr h
  rw [debugRegRead, if_pos hlow, hn, hc, Option.map_some]

theorem debugRegRead_gpr {r : RegNum} (h : k.toNat = 0x1000 + r.toNat) : debugRegRead k s = some (s.getReg r) := by
  obtain ⟨hhigh, hlow, hr⟩ := regno_gpr h
  rw [debugRegRead, if_neg hhigh, if_pos hlow, hr]

theorem debugRegWrite_csr {n : CsrNum} {c : Csr} (hc : csrOfNum n = some c) (h : k.toNat = n.toNat) :
    debugRegWrite k d s = some (csrWrite c d s) := by
  obtain ⟨hlow, hn⟩ := regno_csr h
  rw [debugRegWrite, if_pos hlow, hn, hc, Option.map_some]

theorem debugRegWrite_gpr {r : RegNum} (h : k.toNat = 0x1000 + r.toNat) :
    debugRegWrite k d s = some (s.setReg r d) := by
  obtain ⟨hhigh, hlow, hr⟩ := regno_gpr h
  rw [debugRegWrite, if_neg hhigh, if_pos hlow, hr]

/-- `regno` names a CSR or a general register. -/
def NamesRegister (k : Nat) : Prop :=
  (∃ n c, csrOfNum n = some c ∧ k = n.toNat) ∨ ∃ r : RegNum, k = 0x1000 + r.toNat

theorem namesRegister_iff {k : Nat} :
    NamesRegister k ↔ (0x1000 ≤ k ∧ k < 0x1020) ∨ ∃ n ∈ csrNumbers, k = n.toNat := by
  constructor
  · rintro (⟨n, c, hc, rfl⟩ | ⟨r, rfl⟩)
    · exact .inr ⟨n, mem_csrNumbers.mpr ⟨c, csrOfNum_eq_some.mp hc⟩, rfl⟩
    · have := r.isLt
      exact .inl ⟨by omega, by omega⟩
  · rintro (⟨hlow, hhigh⟩ | ⟨n, hn, rfl⟩)
    · refine .inr ⟨BitVec.ofNat 5 (k - 0x1000), ?_⟩
      rw [BitVec.toNat_ofNat]
      omega
    · obtain ⟨c, rfl⟩ := mem_csrNumbers.mp hn
      exact .inl ⟨_, c, csrOfNum_csrNum c, rfl⟩

/-- Where `regno` names no register there is nothing to read or to write. -/
theorem debugReg_eq_none (h : ¬ NamesRegister k.toNat) : debugRegRead k s = none ∧ debugRegWrite k d s = none := by
  by_cases hlow : k.toNat < 0x1000
  · have hnum : (k.setWidth 12).toNat = k.toNat := by rw [BitVec.toNat_setWidth]; omega
    have hcsr : csrOfNum (k.setWidth 12) = none := by
      refine Option.eq_none_iff_forall_ne_some.mpr fun c hc => h (.inl ⟨_, c, hc, hnum.symm⟩)
    simp only [debugRegRead, debugRegWrite, if_pos hlow, hcsr, Option.map_none, and_self]
  · have hhigh : ¬ k.toNat < 0x1020 := fun hlt => h (namesRegister_iff.mpr (.inl ⟨by omega, hlt⟩))
    simp only [debugRegRead, debugRegWrite, if_neg hlow, if_neg hhigh, and_self]

theorem debugRegRead_isSome (h : NamesRegister k.toNat) : ∃ w, debugRegRead k s = some w := by
  rcases h with ⟨n, c, hc, hk⟩ | ⟨r, hk⟩
  · exact ⟨_, debugRegRead_csr hc hk⟩
  · exact ⟨_, debugRegRead_gpr hk⟩

/-- A register write leaves the Debug Module alone. -/
theorem debugRegWrite_isSome (h : NamesRegister k.toNat) : ∃ t, debugRegWrite k d s = some t ∧ t.dm = s.dm := by
  rcases h with ⟨n, c, hc, hk⟩ | ⟨r, hk⟩
  · exact ⟨_, debugRegWrite_csr hc hk, rfl⟩
  · exact ⟨_, debugRegWrite_gpr hk, rfl⟩

end

/-! ### The transfer -/

section

variable {v : Word} {s : State}

theorem commandTransfer_off (h : v.getLsbD 17 = false) : commandTransfer v s = some s := if_pos h

theorem commandTransfer_otherSize (h : v.getLsbD 17 = true) (hsize : v.toNat / 2 ^ 20 % 8 ≠ 2) :
    commandTransfer v s = none := by
  rw [commandTransfer, if_neg (by simp [h]), if_pos (mt aarsize_iff.mp hsize)]

theorem commandTransfer_on (h : v.getLsbD 17 = true) (hsize : v.toNat / 2 ^ 20 % 8 = 2) :
    commandTransfer v s =
      if v.getLsbD 16 = false then
        (debugRegRead (v.extractLsb' 0 16) s).map (fun r => { s with dm := { s.dm with data0 := r } })
      else debugRegWrite (v.extractLsb' 0 16) s.dm.data0 s := by
  rw [commandTransfer, if_neg (by simp [h]), if_neg (not_not.mpr (aarsize_iff.mpr hsize))]

/-- A read that names a register (R478). -/
theorem commandTransfer_reads (h : v.getLsbD 17 = true) (hsize : v.toNat / 2 ^ 20 % 8 = 2)
    (hread : v.getLsbD 16 = false) (hk : NamesRegister (v.toNat % 2 ^ 16)) :
    ∃ w, commandTransfer v s = some { s with dm := { s.dm with data0 := w } } ∧
      (∀ r : RegNum, v.toNat % 2 ^ 16 = 0x1000 + r.toNat → w = s.getReg r) ∧
      ∀ n c, csrOfNum n = some c → v.toNat % 2 ^ 16 = n.toNat → w = csrRead c s := by
  rw [← regno_toNat] at hk ⊢
  obtain ⟨w, hw⟩ := debugRegRead_isSome (s := s) hk
  refine ⟨w, ?_, fun r hr => ?_, fun n c hc hn => ?_⟩
  · rw [commandTransfer_on h hsize, if_pos hread, hw, Option.map_some]
  · exact Option.some.inj (hw.symm.trans (debugRegRead_gpr hr))
  · exact Option.some.inj (hw.symm.trans (debugRegRead_csr hc hn))

/-- A write that names a register (R478). -/
theorem commandTransfer_writes (h : v.getLsbD 17 = true) (hsize : v.toNat / 2 ^ 20 % 8 = 2)
    (hwrite : v.getLsbD 16 = true) (hk : NamesRegister (v.toNat % 2 ^ 16)) :
    ∃ u, commandTransfer v s = some u ∧ u.dm = s.dm ∧
      (∀ r : RegNum, v.toNat % 2 ^ 16 = 0x1000 + r.toNat → u = s.setReg r s.dm.data0) ∧
      ∀ n c, csrOfNum n = some c → v.toNat % 2 ^ 16 = n.toNat → u = csrWrite c s.dm.data0 s := by
  rw [← regno_toNat] at hk ⊢
  obtain ⟨u, hu, hdm⟩ := debugRegWrite_isSome (s := s) (d := s.dm.data0) hk
  refine ⟨u, ?_, hdm, fun r hr => ?_, fun n c hc hn => ?_⟩
  · rw [commandTransfer_on h hsize, if_neg (by simp [hwrite]), hu]
  · exact Option.some.inj (hu.symm.trans (debugRegWrite_gpr hr))
  · exact Option.some.inj (hu.symm.trans (debugRegWrite_csr hc hn))

theorem commandTransfer_noRegister (h : v.getLsbD 17 = true) (hk : ¬ NamesRegister (v.toNat % 2 ^ 16)) :
    commandTransfer v s = none := by
  by_cases hsize : v.toNat / 2 ^ 20 % 8 = 2
  · rw [← regno_toNat] at hk
    obtain ⟨hread, hwrite⟩ := debugReg_eq_none (s := s) (d := s.dm.data0) hk
    rw [commandTransfer_on h hsize, hread, hwrite, Option.map_none, ite_self]
  · exact commandTransfer_otherSize h hsize

end

/-! ### How a write to `command` ends -/

section

variable {v : Word} {s : State}

/-- `cmderr` set where no error stands (R479). -/
theorem setError_of_clear (h : s.dm.cmderr = 0) (code : BitVec 3) :
    s.setError code = { s with dm := { s.dm with cmderr := code } } := by
  rw [State.setError, DebugModule.setError, if_pos h]

/-- The same where `command` already holds what has been written. -/
theorem setError_of_command (h : s.dm.cmderr = 0) (v : Word) (code : BitVec 3) :
    State.setError code { s with dm := { s.dm with command := v } } =
      { s with dm := { s.dm with cmderr := code, command := v } } :=
  setError_of_clear (s := { s with dm := { s.dm with command := v } }) h code

theorem writeCommand_ignored (h : s.dm.cmderr ≠ 0) : writeCommand v s = s := if_pos h

section

variable (hclear : s.dm.cmderr = 0)

include hclear

theorem writeCommand_otherType (h : v.toNat / 2 ^ 24 ≠ 0) :
    writeCommand v s = { s with dm := { s.dm with cmderr := 2, command := v } } :=
  (if_neg (not_not_intro hclear)).trans ((if_pos (mt cmdtype_iff.mp h)).trans (setError_of_command hclear v 2))

section

variable (htype : v.toNat / 2 ^ 24 = 0)

include htype

theorem writeCommand_busy (h : s.dm.pbIndex ≠ none) :
    writeCommand v s = { s with dm := { s.dm with cmderr := 1 } } :=
  (if_neg (not_not_intro hclear)).trans ((if_neg (not_not_intro (cmdtype_iff.mpr htype))).trans
    ((if_pos (Option.isSome_iff_ne_none.mpr h)).trans (setError_of_clear hclear 1)))

variable (hidle : s.dm.pbIndex = none)

include hidle

theorem writeCommand_notHalted (h : s.hartStatus ≠ .halted) :
    writeCommand v s = { s with dm := { s.dm with cmderr := 4, command := v } } :=
  (if_neg (not_not_intro hclear)).trans ((if_neg (not_not_intro (cmdtype_iff.mpr htype))).trans
    ((if_neg (mt Option.isSome_iff_ne_none.mp (not_not_intro hidle))).trans
      ((if_pos h).trans (setError_of_command hclear v 4))))

variable (hhalted : s.hartStatus = .halted)

include hhalted

theorem writeCommand_fails (h : commandTransfer v { s with dm := { s.dm with command := v } } = none) :
    writeCommand v s = { s with dm := { s.dm with cmderr := 2, command := v } } := by
  refine (if_neg (not_not_intro hclear)).trans ((if_neg (not_not_intro (cmdtype_iff.mpr htype))).trans
    ((if_neg (mt Option.isSome_iff_ne_none.mp (not_not_intro hidle))).trans
      ((if_neg (not_not_intro hhalted)).trans ?_)))
  rw [h]
  exact setError_of_command hclear v 2

theorem writeCommand_transfers {t : State}
    (h : commandTransfer v { s with dm := { s.dm with command := v } } = some t) :
    writeCommand v s = commandFinish v t := by
  refine (if_neg (not_not_intro hclear)).trans ((if_neg (not_not_intro (cmdtype_iff.mpr htype))).trans
    ((if_neg (mt Option.isSome_iff_ne_none.mp (not_not_intro hidle))).trans
      ((if_neg (not_not_intro hhalted)).trans ?_)))
  rw [h]

end

end

end

/-! ### After the transfer -/

/-- The increment of `regno`, as a number: it stays within its sixteen bits. -/
theorem nextCommand_toNat (v : Word) (b : Bool) :
    (if b then v.extractLsb' 16 16 ++ (v.extractLsb' 0 16 + 1) else v).toNat =
      v.toNat / 2 ^ 16 * 2 ^ 16 + (if b then (v.toNat % 2 ^ 16 + 1) % 2 ^ 16 else v.toNat % 2 ^ 16) := by
  have := v.isLt
  cases b with
  | false =>
    rw [if_neg Bool.false_ne_true, if_neg Bool.false_ne_true]
    omega
  | true =>
    rw [if_pos rfl, if_pos rfl, BitVec.toNat_append, ← Nat.shiftLeft_add_eq_or_of_lt (BitVec.isLt _),
      Nat.shiftLeft_eq, BitVec.extractLsb'_toNat, Nat.shiftRight_eq_div_pow, BitVec.toNat_add, regno_toNat]
    have : (1 : BitVec 16).toNat = 1 := rfl
    omega

/-- After a transfer that has changed `data0` at most, what follows it changes `command` and starts the program buffer
if asked; nothing else of the Debug Module changes. -/
theorem commandFinish_dm {v : Word} {s t : State} (hidle : s.dm.pbIndex = none)
    (h : t.dm = { s.dm with command := v, data0 := t.dm.data0 }) :
    (commandFinish v t).dm = { s.dm with
      command := (commandFinish v t).dm.command, data0 := (commandFinish v t).dm.data0,
      pbIndex := if v.getLsbD 18 then some 0 else none } := by
  have hindex : t.dm.pbIndex = none := (congrArg DebugModule.pbIndex h).trans hidle
  simp only [commandFinish, hindex]
  rw [h]

/-- No CSR reads the Debug Module. -/
theorem csrRead_dm (c : Csr) (s : State) (d : DebugModule) : csrRead c { s with dm := d } = csrRead c s := by
  cases c <;> rfl

end Machine
end Sys2Proof
end

section
/-! The Access Register command (60 R478, R479). -/

namespace Sys2Proof
namespace Machine

/-- Settles O51: each clause is one branch of `writeCommand`. -/
theorem abstractCommandRejections : Obligations.AbstractCommandRejections := by
  intro s v t rejected
  have rejects (code : BitVec 3) (h : t = { s with dm := { s.dm with cmderr := code, command := v } }) :
      rejected code := ⟨congrArg (fun u => u.dm.cmderr) h, h⟩
  refine ⟨writeCommand_ignored, fun hclear htype => ?type, fun hclear htype hbusy => ?busy,
    fun hclear htype hidle hstate => ?notHalted, fun hclear htype hidle hm hr hsel htransfer hbad => ?transfer⟩
  case type => exact rejects 2 (writeCommand_otherType hclear htype)
  case busy =>
    have hbusy := writeCommand_busy (v := v) hclear htype hbusy
    exact ⟨congrArg (fun u => u.dm.cmderr) hbusy, hbusy⟩
  case notHalted =>
    refine rejects 4 (writeCommand_notHalted hclear htype hidle fun hhalted => ?_)
    obtain ⟨hsel, hr, hm⟩ := hartStatus_halted_iff.mp hhalted
    simp [hsel, hr, hm] at hstate
  case transfer =>
    refine rejects 2 (writeCommand_fails hclear htype hidle (hartStatus_halted hm hr hsel) ?_)
    rcases hbad with hsize | ⟨hcsr, hgpr⟩
    · exact commandTransfer_otherSize htransfer hsize
    · refine commandTransfer_noRegister htransfer fun hnames => ?_
      rcases namesRegister_iff.mp hnames with hk | ⟨n, hn, hk⟩
      · exact hgpr hk
      · exact hcsr n hn hk

/-- Settles O52: the command on a halted hart is `commandFinish` of what was transferred. -/
theorem abstractCommandTransfers : Obligations.AbstractCommandTransfers := by
  intro s v t regno hclear htype hidle hm hr hsel done
  have transfers {u : State} (h : commandTransfer v { s with dm := { s.dm with command := v } } = some u) :
      t = commandFinish v u := writeCommand_transfers hclear htype hidle (hartStatus_halted hm hr hsel) h
  have finished {u : State} (ht : t = commandFinish v u)
      (hu : u.dm = { s.dm with command := v, data0 := u.dm.data0 }) : done := by
    refine ⟨?_, ?_⟩
    · rw [ht]
      exact nextCommand_toNat v (v.getLsbD 19)
    · rw [ht]
      exact commandFinish_dm hidle hu
  constructor
  · intro hoff
    have ht := transfers (commandTransfer_off hoff)
    exact ⟨finished ht rfl, by rw [ht]; rfl, by rw [ht]; rfl⟩
  · intro hon hsize hnames
    have hnamed := namesRegister_iff.mpr hnames
    cases hdir : v.getLsbD 16 with
    | false =>
      obtain ⟨w, hw, hgpr, hcsr⟩ := commandTransfer_reads hon hsize hdir hnamed
      have ht := transfers hw
      have hdata : t.dm.data0 = w := by rw [ht]; rfl
      exact ⟨finished ht rfl, fun _ => ⟨fun r hr => hdata.trans (hgpr r hr),
        fun n c hc hn => (hdata.trans (hcsr n c hc hn)).trans (csrRead_dm c s _), by rw [ht]; rfl⟩, nofun⟩
    | true =>
      obtain ⟨u, hu, hdm, hgpr, hcsr⟩ := commandTransfer_writes hon hsize hdir hnamed
      have ht := transfers hu
      refine ⟨finished ht (by rw [hdm]), nofun, fun _ => ⟨?data, fun r hr => ?gpr, fun n c hc hn => ?csr⟩⟩
      case data => rw [ht, show (commandFinish v u).dm.data0 = u.dm.data0 from rfl, hdm]
      case gpr =>
        rw [ht, hgpr r hr]
        exact ⟨fun q => getReg_setReg s r q s.dm.data0, rfl⟩
      case csr =>
        rw [ht, hcsr n c hc hn]
        rfl

end Machine
end Sys2Proof
end

section
/-! SUPPORT. What the debugger reads from the Debug Module's registers, field by field (60 R480, R481; log 28). -/

namespace Sys2Proof
namespace Machine

/-! ### Fields of a register -/

/-- The bits the source describes read what is known of them. -/
theorem dmPart_getLsbD (s : State) (addr : Nat) {mask known : Word} {k : Nat} (h : mask.getLsbD k = true) :
    (dmPart s addr mask known).getLsbD k = known.getLsbD k := by
  rw [dmPart, BitVec.getLsbD_or, BitVec.getLsbD_and, BitVec.getLsbD_and, BitVec.getLsbD_not, h, Bool.and_true,
    Bool.not_true, Bool.and_false, Bool.and_false, Bool.or_false]

/-- A field of a word, as a number. -/
theorem field_toNat (w : Word) (i n : Nat) : (w.extractLsb' i n).toNat = w.toNat / 2 ^ i % 2 ^ n := by
  rw [BitVec.extractLsb'_toNat, Nat.shiftRight_eq_div_pow]

/-- `cmderr` at bits 10:8 of `abstractcs` (R479). -/
theorem abstractcs_cmderr (s : State) {k : Nat} (hk : k < 3) :
    s.abstractcs.getLsbD (8 + k) = s.dm.cmderr.getLsbD k := by
  have hmask : ∀ j < 3, (0x00000700#32).getLsbD (8 + j) = true := by decide
  rw [State.abstractcs, dmPart_getLsbD s _ (hmask k hk), BitVec.getLsbD_shiftLeft, BitVec.getLsbD_setWidth,
    Nat.add_sub_cancel_left, decide_eq_true (by omega : 8 + k < 32), decide_eq_true (by omega : k < 32),
    decide_eq_false (by omega : ¬ 8 + k < 8)]
  rfl

/-- The pair of bits of `dmstatus`, `any` and `all`, that tells a state of the hart: the `n`-th pair from bit 8 up. -/
def statusPair : HartStatus → Nat
  | .halted => 0
  | .running => 1
  | .unavailable => 2
  | .nonExistent => 3

theorem dmstatus_bit (s : State) {k : Nat} (hk : k < 8) :
    s.dmstatus.getLsbD (8 + k) = decide (k / 2 = statusPair s.hartStatus) := by
  have hmask : ∀ j < 8, (0x0000FF00#32).getLsbD (8 + j) = true := by decide
  have hbits : ∀ j < 8, ∀ h : HartStatus, h.bits.getLsbD (8 + j) = decide (j / 2 = statusPair h) := by
    intro j hj h
    cases h <;> revert j <;> decide
  rw [State.dmstatus, dmPart_getLsbD s _ (hmask k hk), hbits k hk]

/-- The two halves of `hartsel` in `dmcontrol`, side by side. -/
theorem hartselWord_getLsbD (lo hi : BitVec 10) {k : Nat} (hk : k < 10) :
    ((lo.setWidth 32 <<< 16) ||| (hi.setWidth 32 <<< 6) : Word).getLsbD (16 + k) = lo.getLsbD k ∧
      ((lo.setWidth 32 <<< 16) ||| (hi.setWidth 32 <<< 6) : Word).getLsbD (6 + k) = hi.getLsbD k := by
  constructor
  · have hhi : hi.getLsbD (16 + k - 6) = false := BitVec.getLsbD_of_ge _ _ (by omega)
    simp only [BitVec.getLsbD_or, BitVec.getLsbD_shiftLeft, BitVec.getLsbD_setWidth, hhi, Nat.add_sub_cancel_left]
    simp [show 16 + k < 32 by omega, show k < 32 by omega]
  · simp only [BitVec.getLsbD_or, BitVec.getLsbD_shiftLeft, BitVec.getLsbD_setWidth, Nat.add_sub_cancel_left]
    simp [show 6 + k < 32 by omega, show k < 32 by omega, show 6 + k < 16 by omega]

theorem dmcontrol_hartsel_low (s : State) : s.dmcontrol.toNat / 2 ^ 16 % 2 ^ 10 = s.dm.hartsel % 2 ^ 10 := by
  have hmask : ∀ j < 10, (0x03FFFFC0#32).getLsbD (16 + j) = true := by decide
  have hfield : s.dmcontrol.extractLsb' 16 10 = BitVec.ofNat 10 s.dm.hartsel := by
    refine BitVec.eq_of_getLsbD_eq fun k hk => ?_
    rw [BitVec.getLsbD_extractLsb', State.dmcontrol, dmPart_getLsbD s _ (hmask k hk), (hartselWord_getLsbD _ _ hk).1,
      decide_eq_true hk, Bool.true_and]
  rw [← field_toNat, hfield, BitVec.toNat_ofNat]

theorem dmcontrol_hartsel_high (s : State) :
    s.dmcontrol.toNat / 2 ^ 6 % 2 ^ 10 = s.dm.hartsel / 2 ^ 10 % 2 ^ 10 := by
  have hmask : ∀ j < 10, (0x03FFFFC0#32).getLsbD (6 + j) = true := by decide
  have hfield : s.dmcontrol.extractLsb' 6 10 = BitVec.ofNat 10 (s.dm.hartsel / 1024) := by
    refine BitVec.eq_of_getLsbD_eq fun k hk => ?_
    rw [BitVec.getLsbD_extractLsb', State.dmcontrol, dmPart_getLsbD s _ (hmask k hk), (hartselWord_getLsbD _ _ hk).2,
      decide_eq_true hk, Bool.true_and]
  rw [← field_toNat, hfield]
  exact BitVec.toNat_ofNat (s.dm.hartsel / 1024) 10

/-! ### Reads by address -/

theorem dmRead_progbuf {s : State} {k : Nat} {w : Word} (hk : k < 16) (hw : s.dm.progbuf[k]? = some w) :
    s.dmRead (0x20 + k) = w := by
  obtain ⟨hlen, hword⟩ := List.getElem?_eq_some_iff.mp hw
  have hreg : dmReg s (0x20 + k) = some (.progbuf k) := by
    have hother (a : Nat) (ha : a < 0x20 ∨ 0x30 ≤ a) : 0x20 + k ≠ a := by omega
    have hrange : 0x20 ≤ 0x20 + k ∧ 0x20 + k < 0x30 := by omega
    simp only [dmReg, Nat.add_sub_cancel_left, hother 0x04 (by decide), hother 0x10 (by decide),
      hother 0x11 (by decide), hother 0x16 (by decide), hother 0x17 (by decide), hother 0x40 (by decide), hrange, hlen,
      and_self, if_false, if_true]
  rw [State.dmRead, hreg, ← hword]
  exact List.getD_eq_getElem _ _ hlen

theorem dmRead_unimplemented {s : State} {addr : Nat} (h : addr ∉ [0x04, 0x10, 0x11, 0x16, 0x17, 0x40])
    (hout : addr < 0x20 ∨ 0x30 ≤ addr) : s.dmRead addr = 0 := by
  have hreg : dmReg s addr = none := by
    simp only [List.mem_cons, List.not_mem_nil, or_false, not_or] at h
    simp only [dmReg, h, if_false]
    exact if_neg (by omega)
  rw [State.dmRead, hreg]

theorem haltsum0_toNat (s : State) : s.haltsum0.toNat = if s.inReset = false ∧ s.mode = .D then 1 else 0 := by
  unfold State.haltsum0
  cases s.inReset <;> cases s.mode <;> rfl

end Machine
end Sys2Proof
end

section
/-! The Debug Module's registers (60 R479 to R481). -/

namespace Sys2Proof
namespace Machine

/-- Settles O53: an input to `abstractcs` masks `cmderr`, an instruction of the program buffer leaves it as
`exec_D_cmderr` says, and each register the debugger reads has its lemma. -/
theorem debugModuleRegistersAndCmderr : Obligations.DebugModuleRegistersAndCmderr := by
  refine ⟨fun s v => ⟨rfl, fun k hk => ?clears⟩, fun i s t => exec_D_cmderr, fun s => ?reads, fun s =>
    ⟨hartStatus_nonExistent_iff, hartStatus_unavailable_iff, hartStatus_running_iff, hartStatus_halted_iff⟩⟩
  case clears =>
    show (s.dm.cmderr &&& ~~~(v.extractLsb' 8 3)).getLsbD k = _
    simp [hk]
  case reads =>
    refine ⟨rfl, rfl, fun k hk => abstractcs_cmderr s hk, fun k hk w => dmRead_progbuf hk, haltsum0_toNat s,
      fun addr => dmRead_unimplemented, fun k hk => (dmstatus_bit s hk).trans ?_, dmcontrol_hartsel_low s,
      dmcontrol_hartsel_high s⟩
    cases s.hartStatus <;> rfl

end Machine
end Sys2Proof
end

section
/-! SUPPORT. The release of reset (10_state R60; 70 R500, R502), and the pc-dependent instructions from the program
buffer, whose results are free (60 R476; log 16). -/

namespace Sys2Proof
namespace Machine

/-! ### The release of reset -/

section
variable {s : State} {u : ResetValues}

/-- Without an armed halt the release is the reset itself. -/
theorem releaseReset_unarmed (hr : s.inReset = true) (ha : s.dm.resetHaltReq = false) :
    applyInput s (.releaseReset u) = s.afterReset u := by
  rw [applyInput, releaseReset, if_pos hr, ha]
  rfl

/-- With an armed halt the hart enters D-mode from the state after reset. -/
theorem releaseReset_armed (hr : s.inReset = true) (ha : s.dm.resetHaltReq = true) :
    applyInput s (.releaseReset u) = enterDebug 5 s.cfg.resetAddr (s.afterReset u) := by
  rw [applyInput, releaseReset, if_pos hr, if_pos ha]

end

theorem afterReset_mstatusMIE (u : ResetValues) (s : State) : (s.afterReset u).mstatus.getLsbD 3 = false := by
  show (if u.mpie then 0x00001880#32 else 0x00001800#32).getLsbD 3 = false
  cases u.mpie <;> rfl

theorem afterReset_getReg (u : ResetValues) (s : State) {r : RegNum} (h : r ≠ 0) :
    (s.afterReset u).getReg r = u.x[r.toNat] := if_neg h

/-! ### Control transfers from the program buffer -/

section
variable {i : Instr} {s : State}

/-- What the free place changes is the place alone, and only while the buffer runs. -/
theorem debugTransfer_pbIndex_isSome (s : State) : (debugTransfer s).dm.pbIndex.isSome = s.dm.pbIndex.isSome :=
  Option.isSome_map

/-- JAL and JALR in D-mode: a free link, then a free place. -/
theorem movesInBuffer_of_linkAndJump {rd : RegNum} {target : Word} (hD : s.mode = .D)
    (hi : exec i s = linkAndJump rd target s) : MovesInBuffer i s rd :=
  ⟨Config.debugResult s.free, _, hi.trans (if_neg (mode_ne_M hD)), fun r => getReg_setReg s rd r _, fun _ => rfl, rfl,
    debugTransfer_pbIndex_isSome _⟩

/-- The branches in D-mode: no register, and a free place whether the condition holds or not. -/
theorem movesInBuffer_of_branch {taken : Bool} {off : BitVec 13} (hD : s.mode = .D)
    (hi : exec i s = branch taken off s) : MovesInBuffer i s 0 :=
  ⟨0, _, hi.trans (if_neg (mode_ne_M hD)), fun _ => (if_neg fun h => h.2 rfl).symm, fun _ => rfl, rfl,
    debugTransfer_pbIndex_isSome s⟩

end

end Machine
end Sys2Proof
end

section
/-! The release of reset (70 R500 to R502) and the pc-dependent instructions of the program buffer (60 R476). -/

namespace Sys2Proof
namespace Machine

/-- Settles O54: the release is `State.afterReset`, whose hardwired fields are those of a legal state. -/
theorem resetLeaves : Obligations.ResetLeaves := by
  intro s u hr ha
  rw [releaseReset_unarmed hr ha]
  exact ⟨rfl, rfl, rfl, afterReset_mstatusMIE u s, (afterReset_csrsLegal u s).mstatus, and_fffffffc_toNat s.cfg.excAddr,
    rfl, rfl, rfl, rfl, rfl, getReg_zero _, fun _ => rfl, rfl, rfl, fun _ => afterReset_getReg u s, rfl, rfl⟩

/-- Settles O55: an armed release is `enterDebug`, so it halts by `enterDebug_halts`, and an unarmed one
`State.afterReset`, which leaves M-mode. -/
theorem armedResetHalts : Obligations.ArmedResetHalts := by
  intro s u hr
  constructor
  case left =>
    intro ha
    rw [releaseReset_armed hr ha]
    refine ⟨enterDebug_halts 5 s.cfg.resetAddr (s.afterReset u), ?_⟩
    by_cases hsel : s.dm.hartsel = 0
    · rw [if_pos hsel]
      exact hartStatus_halted_iff.mpr ⟨hsel, rfl, rfl⟩
    · rw [if_neg hsel]
      exact hartStatus_nonExistent_iff.mpr hsel
  case right =>
    intro ha
    rw [releaseReset_unarmed hr ha]
    rfl

/-- Settles O15: AUIPC ends in `writeRd` in either mode, the jumps in `linkAndJump`, the branches in `branch`. -/
theorem programBufferPcForms : Obligations.ProgramBufferPcForms := by
  intro s rd rs1 rs2 upper jump imm off hD
  refine ⟨yields_of_exec rfl trivial, movesInBuffer_of_linkAndJump hD rfl, movesInBuffer_of_linkAndJump hD rfl, ?_⟩
  simp only [List.forall_mem_cons, List.not_mem_nil, false_imp_iff, implies_true, and_true]
  refine ⟨?beq, ?bne, ?blt, ?bge, ?bltu, ?bgeu⟩ <;> exact movesInBuffer_of_branch hD rfl

end Machine
end Sys2Proof
end
